-- ==== Sys2Proof/Word.lean ====
section
/-! DEFINITION. The bit-vector types the spec names: the operand widths of 00_scope.md section 4
(WORD_W, BYTE_W, CMD_W and the 20-bit response). Bit 0 is the least significant bit (rule R3). -/

namespace Sys2Proof

/-- A byte of a sensor register (`BYTE_W` = 8). -/
abbrev Byte := BitVec 8

/-- A register word, `{byte0, byte1}` with `byte0 = w[15:8]` (`WORD_W` = 16; rule R3). -/
abbrev Word := BitVec 16

/-- A command word `{op[3:0], arg[31:0]}` (`CMD_W` = 36; rule R65). -/
abbrev Command := BitVec 36

/-- A response word `{status[2:0], warn, data[15:0]}` (rule R70). -/
abbrev ResponseWord := BitVec 20

end Sys2Proof
end

