-- ==== Sys2Proof/Syntax.lean ====
section
/-! DEFINITION. The commands of the block, one constructor per row of spec/opcode_table.json, with their
operands as the layouts of rule R66 give them, and the host's bus transfers (rule R44). -/

namespace Sys2Proof

/-- The overrides of `ENC_C` (rule R69): `some v` where the field's enable bit is 1, `none` where it is 0.
A value whose enable bit is 0 is ignored (rule R69), so it has no place here. -/
structure Overrides where
  /-- `ov_hyst`, 8 bits, so that illegal levels 4 to 255 are presentable (rule R69) -/
  hyst      : Option Byte
  shdn      : Option Bool
  critLock  : Option Bool
  winLock   : Option Bool
  intClear  : Option Bool
  alertEn   : Option Bool
  alertSel  : Option Bool
  alertPol  : Option Bool
  alertMode : Option Bool
  deriving DecidableEq, Repr

/-- The sixteen rows of the command map (rules R73, R74). -/
inductive Instr where
  /-- `DEC_T`: decode the temperature of a temperature word (rule R85) -/
  | decT (w : Word)
  /-- `DEC_F`: extract the alert-trigger flags of a temperature word (rule R90) -/
  | decF (w : Word)
  /-- `ENC_L`: encode an alert limit given in S16Q4 (rule R93) -/
  | encL (q : Word)
  /-- `DEC_R`: decode a resolution byte (rule R111) -/
  | decR (b : Byte)
  /-- `ENC_R`: encode a resolution level (rule R113) -/
  | encR (b : Byte)
  /-- `DEC_C`: decode a configuration word (rule R121) -/
  | decC (w : Word)
  /-- `LD_C`: decode a configuration word into the cache (rule R124) -/
  | ldC (w : Word)
  /-- `ENC_C`: encode a configuration word from cache and overrides (rule R127) -/
  | encC (o : Overrides)
  /-- `RD_C`: read the cache (rule R136) -/
  | rdC
  /-- `op` 0x9, reserved (rule R74) -/
  | reserved9
  /-- `op` 0xA, reserved (rule R74) -/
  | reservedA
  /-- `op` 0xB, reserved (rule R74) -/
  | reservedB
  /-- `op` 0xC, reserved (rule R74) -/
  | reservedC
  /-- `op` 0xD, reserved (rule R74) -/
  | reservedD
  /-- `op` 0xE, reserved (rule R74) -/
  | reservedE
  /-- `op` 0xF, reserved (rule R74) -/
  | reservedF
  deriving DecidableEq, Repr

/-- The registers of the sensor's map, as the host names them (rule R31). -/
inductive SensorReg where
  | config
  | alertUpper
  | alertLower
  | alertCritical
  | temperature
  | manufacturerId
  | deviceId
  | resolution
  deriving DecidableEq, Repr

/-- Which alert limit the host sets (rule R76, `SET_LIMIT which, t`). -/
inductive LimitKind where
  | upper
  | lower
  | critical
  deriving DecidableEq, Repr

/-- One bus transfer of the host, `read(address, register, length)` or `write(address, register, bytes)`
(rules R30, R44). The block performs neither. -/
inductive Transfer where
  | read (address : BitVec 7) (offset : Byte) (length : Nat)
  | write (address : BitVec 7) (offset : Byte) (bytes : List Byte)
  deriving DecidableEq, Repr

end Sys2Proof
end

