-- ==== Sys2Proof/WellFormed.lean ====
section
/-! DEFINITION. What a well-formed command number and a well-formed bus transfer are. Every term of `Instr`
is well-formed: its operand types are exactly the layouts' widths, and "every 8-bit and every 16-bit pattern
is a well-formed operand" (rule R68); a boolean override is one bit (rule R130). So the checks here are on
the two inputs that are wider than the spec allows: a number offered as a command, and a host transfer. -/

namespace Sys2Proof

/-- A number is a command word when it fits the 36 bits of the one command format (rule R65). -/
def commandNumberWellFormed (n : Nat) : Bool := decide (n < 2 ^ 36)

/-- The width of the register at an offset of the sensor's map, in bytes: 2 for 0x01 to 0x07, 1 for 0x08
(rule R34); no register elsewhere (rule R32). -/
def registerWidth (offset : Byte) : Option Nat :=
  if 1 ≤ offset.toNat ∧ offset.toNat ≤ 7 then some 2
  else if offset.toNat = 8 then some 1
  else none

/-- Whether the host may write the register at an offset: 0x06 and 0x07 are read-only and the host never
writes 0x05 (rule R36). -/
def registerWritable (offset : Byte) : Bool :=
  !(offset == 0x05#8 || offset == 0x06#8 || offset == 0x07#8)

/-- A transfer addresses a register of the map and moves exactly that register (rules R32, R34); a write
goes to a register the host writes (rule R36). -/
def Transfer.wellFormed : Transfer → Bool
  | .read _ offset length => registerWidth offset == some length
  | .write _ offset bytes => registerWidth offset == some bytes.length && registerWritable offset

end Sys2Proof
end

