-- ==== Sys2Proof/Decode.lean ====
section
/-! DEFINITION. The command decoder and the encoder (30_encoding.md sections 2 and 4). The decoder is total on
36-bit words: reserved operation codes have rows and constructors of their own (rules R74, R153). A number
that does not fit 36 bits is rejected by name. -/

namespace Sys2Proof

/-! ### Bit-field helpers (00_scope.md section 5) -/

/-- `{hi, lo}` as a `k`-bit word: `hi` in the more significant position. -/
def concat (k : Nat) {n m : Nat} (hi : BitVec n) (lo : BitVec m) : BitVec k := hi.setWidth k <<< m ||| lo.setWidth k

/-- The `k`-bit word with the bit `b` at position `i` and zeros elsewhere. -/
def bitAt (k i : Nat) (b : Bool) : BitVec k := (BitVec.ofBool b).setWidth k <<< i

/-! ### Decoding -/

/-- Why a number is no command. -/
inductive DecodeError where
  /-- the number does not fit the 36-bit command word (rule R65); safe: nothing is run -/
  | widerThanCommand
  deriving DecidableEq, Repr

/-- `cmd[31:0]`, the operand (rule R65). -/
def argField (c : Command) : BitVec 32 := c.extractLsb' 0 32

/-- Layout W: the register word `arg[15:0]`; `arg[31:16]` is ignored (rules R66, R67). -/
def layoutW (arg : BitVec 32) : Word := arg.extractLsb' 0 16

/-- Layout B: the byte `arg[7:0]`; `arg[31:8]` is ignored (rules R66, R68). -/
def layoutB (arg : BitVec 32) : Byte := arg.extractLsb' 0 8

/-- Layout Q: the S16Q4 pattern `arg[15:0]`; `arg[31:16]` is ignored (rules R66, R68). -/
def layoutQ (arg : BitVec 32) : Word := arg.extractLsb' 0 16

/-- An override is present when its enable bit is 1 (rule R69). -/
def override {α : Type} (enable : Bool) (value : α) : Option α := if enable then some value else none

/-- Layout O: enables `arg[8:0]`, `ov_hyst = arg[23:16]`, booleans `arg[31:24]` (rules R66, R69);
`arg[15:9]` and the values of disabled overrides are ignored. -/
def layoutO (arg : BitVec 32) : Overrides where
  hyst      := override (arg.getLsbD 0) (arg.extractLsb' 16 8)
  shdn      := override (arg.getLsbD 1) (arg.getLsbD 24)
  critLock  := override (arg.getLsbD 2) (arg.getLsbD 25)
  winLock   := override (arg.getLsbD 3) (arg.getLsbD 26)
  intClear  := override (arg.getLsbD 4) (arg.getLsbD 27)
  alertEn   := override (arg.getLsbD 5) (arg.getLsbD 28)
  alertSel  := override (arg.getLsbD 6) (arg.getLsbD 29)
  alertPol  := override (arg.getLsbD 7) (arg.getLsbD 30)
  alertMode := override (arg.getLsbD 8) (arg.getLsbD 31)

/-- The command map: `op = cmd[35:32]`, written in binary as the table's encoding column has it
(rules R73, R74). -/
def decode (c : Command) : Instr :=
  match c.getLsbD 35, c.getLsbD 34, c.getLsbD 33, c.getLsbD 32 with
  | false, false, false, false => .decT (layoutW (argField c))
  | false, false, false, true  => .decF (layoutW (argField c))
  | false, false, true,  false => .encL (layoutQ (argField c))
  | false, false, true,  true  => .decR (layoutB (argField c))
  | false, true,  false, false => .encR (layoutB (argField c))
  | false, true,  false, true  => .decC (layoutW (argField c))
  | false, true,  true,  false => .ldC (layoutW (argField c))
  | false, true,  true,  true  => .encC (layoutO (argField c))
  | true,  false, false, false => .rdC
  | true,  false, false, true  => .reserved9
  | true,  false, true,  false => .reservedA
  | true,  false, true,  true  => .reservedB
  | true,  true,  false, false => .reservedC
  | true,  true,  false, true  => .reservedD
  | true,  true,  true,  false => .reservedE
  | true,  true,  true,  true  => .reservedF

/-- Decoding of any number: a command word, or the rejection by name. -/
def decodeNumber (n : Nat) : Except DecodeError Instr :=
  if commandNumberWellFormed n then .ok (decode (BitVec.ofNat 36 n)) else .error .widerThanCommand

/-- The instruction the decoder reads from the low `nbits` bits of `w`, numbered as the table numbers them
(the 36-bit command word as one number, `op` in bits 35:32; bits above `nbits` are 0). -/
def decodeTableWord (nbits w : Nat) : Option Instr :=
  match decodeNumber (w % 2 ^ nbits) with
  | .ok i => some i
  | .error _ => none

/-- The nine enable bits `ov_en = arg[8:0]` of the overrides (rule R69). -/
def Overrides.en (o : Overrides) : BitVec 9 :=
  bitAt 9 8 o.alertMode.isSome ||| bitAt 9 7 o.alertPol.isSome ||| bitAt 9 6 o.alertSel.isSome |||
    bitAt 9 5 o.alertEn.isSome ||| bitAt 9 4 o.intClear.isSome ||| bitAt 9 3 o.winLock.isSome |||
    bitAt 9 2 o.critLock.isSome ||| bitAt 9 1 o.shdn.isSome ||| bitAt 9 0 o.hyst.isSome

/-- The eight boolean override values, `ov_bool = arg[31:24]`, from bit 0 (`shdn`) to bit 7 (`alert_mode`)
(rules R66, R69); a value that is not given is 0 (rule R75). -/
def Overrides.bools (o : Overrides) : BitVec 8 :=
  bitAt 8 7 (o.alertMode.getD false) ||| bitAt 8 6 (o.alertPol.getD false) |||
    bitAt 8 5 (o.alertSel.getD false) ||| bitAt 8 4 (o.alertEn.getD false) |||
    bitAt 8 3 (o.intClear.getD false) ||| bitAt 8 2 (o.winLock.getD false) |||
    bitAt 8 1 (o.critLock.getD false) ||| bitAt 8 0 (o.shdn.getD false)

/-- Layout O as an operand: `{ov_bool, ov_hyst, 0000000, ov_en}` (rules R66, R69, R75). -/
def Overrides.arg (o : Overrides) : BitVec 32 :=
  o.bools.setWidth 32 <<< 24 ||| (o.hyst.getD 0#8).setWidth 32 <<< 16 ||| o.en.setWidth 32

/-- Layouts W and Q as an operand, ignored bits 0 (rules R66, R75). -/
def wordArg (w : Word) : BitVec 32 := w.setWidth 32

/-- Layout B as an operand, ignored bits 0 (rules R66, R75). -/
def byteArg (b : Byte) : BitVec 32 := b.setWidth 32

/-- `{op, arg}` (rule R65). -/
def commandWord (op : BitVec 4) (arg : BitVec 32) : Command := concat 36 op arg

/-- The command word of an instruction, ignored operand bits written as 0 (rules R73, R75). -/
def encode : Instr → Command
  | .decT w    => commandWord 0x0#4 (wordArg w)
  | .decF w    => commandWord 0x1#4 (wordArg w)
  | .encL q    => commandWord 0x2#4 (wordArg q)
  | .decR b    => commandWord 0x3#4 (byteArg b)
  | .encR b    => commandWord 0x4#4 (byteArg b)
  | .decC w    => commandWord 0x5#4 (wordArg w)
  | .ldC w     => commandWord 0x6#4 (wordArg w)
  | .encC o    => commandWord 0x7#4 o.arg
  | .rdC       => commandWord 0x8#4 0#32
  | .reserved9 => commandWord 0x9#4 0#32
  | .reservedA => commandWord 0xA#4 0#32
  | .reservedB => commandWord 0xB#4 0#32
  | .reservedC => commandWord 0xC#4 0#32
  | .reservedD => commandWord 0xD#4 0#32
  | .reservedE => commandWord 0xE#4 0#32
  | .reservedF => commandWord 0xF#4 0#32

end Sys2Proof
end

