-- ==== Sys2Proof/Machine/State.lean ====
section
/-! DEFINITION. The state of the block (10_state.md): `CFG_VALID` and the ten fields of `CFG`, and the two
ports through which the host drives it. -/

namespace Sys2Proof.Machine

/-- The configuration cache `CFG`, ten fields (rules R10, R13 to R22). -/
structure Cfg where
  /-- hysteresis level, an opaque 2-bit code (rule R13) -/
  hyst      : BitVec 2
  /-- shutdown flag (rule R14) -/
  shdn      : Bool
  /-- critical-limit lock flag; plain storage, no latch (rule R15) -/
  critLock  : Bool
  /-- temperature-window lock flag; plain storage, no latch (rule R16) -/
  winLock   : Bool
  /-- interrupt-clear flag, hard-wired 0 (rule R17); read through `Cfg.readIntClear` only -/
  intClear  : Bool
  /-- alert flag, read-only status; not settable by `ENC_C` (rule R18) -/
  alertStat : Bool
  /-- alert enable (rule R19) -/
  alertEn   : Bool
  /-- alert-threshold selector (rule R20) -/
  alertSel  : Bool
  /-- alert polarity (rule R21) -/
  alertPol  : Bool
  /-- alert output mode (rule R22) -/
  alertMode : Bool
  deriving DecidableEq, Repr

/-- The errors a command can end with (rule R150). -/
inductive ErrorStatus where
  /-- an operand value is outside the legal domain (rule R151) -/
  | validationError
  /-- the command needs the cache and `CFG_VALID = 0` (rule R152) -/
  | noCache
  /-- the operation code is reserved (rule R153) -/
  | illegalOp
  deriving DecidableEq, Repr

/-- The one response of a command (rule R70). An error carries no data. -/
inductive Response where
  /-- status `OK` with the response fields `data` and `warn` -/
  | ok (data : Word) (warn : Bool)
  /-- a status other than `OK` -/
  | error (e : ErrorStatus)
  deriving DecidableEq, Repr

/-- What the host can present to the block: a command word (rule R65) or the reset input (rule R181). -/
inductive PortEvent where
  | command (c : Command)
  | resetInput
  deriving DecidableEq, Repr

/-- The state. `cfgValid` and `cfg` are all the state the spec gives the block (rule R10); `pending` and `rsp`
are the model's own fields for its two ports (log entries 2 and 3). -/
structure State where
  /-- `CFG_VALID` (rule R11) -/
  cfgValid : Bool
  /-- `CFG` (rule R12) -/
  cfg      : Cfg
  /-- what the host still presents, oldest first: the host's own list (rule R26), DESIGN CHOICE, entry 2 -/
  pending  : List PortEvent
  /-- the response the latest step produced, if it ran a command (rule R70), DESIGN CHOICE, entry 3 -/
  rsp      : Option Response
  deriving DecidableEq, Repr

/-- Reasons the machine stops with a fault. There are none, so the type has no constructor: every command
completes with a response, and an error is a response after which "the block is ready for the next command"
(rule R154). Safe: no step can answer a fault (log entry 9). -/
inductive Fault where
  deriving DecidableEq, Repr

/-- Reasons an instruction is refused. -/
inductive Refusal where
  /-- `exec` has no meaning for the instruction yet; no arm of `exec` answers it. Safe: nothing is run. -/
  | notModelled (mnemonic : String)
  deriving DecidableEq, Repr

/-- The contents of `CFG` after reset. Rule R180 gives `int_clear` = 0; it leaves the other nine fields
unspecified and unobservable while `CFG_VALID = 0`, and their 0 here is a DESIGN CHOICE (log entry 1). -/
def Cfg.reset : Cfg where
  hyst      := 0#2
  shdn      := false
  critLock  := false
  winLock   := false
  intClear  := false
  alertStat := false
  alertEn   := false
  alertSel  := false
  alertPol  := false
  alertMode := false

/-- The block right after reset (rule R180): no loaded cache; nothing presented, no response given. -/
def State.reset : State where
  cfgValid := false
  cfg      := Cfg.reset
  pending  := []
  rsp      := none

end Sys2Proof.Machine
end

