-- ==== Sys2Proof/Machine/Ops.lean ====
section
/-! DEFINITION. The shared operations over the state: the response port, ending a command in a result or in an
error, the configuration cache, the command port and the reset input. -/

namespace Sys2Proof.Machine

/-! ### Responses (30_encoding.md section 3) -/

/-- The numeric code of an error status (rule R70); `OK` is 0. -/
def ErrorStatus.code : ErrorStatus → BitVec 3
  | .validationError => 1#3
  | .noCache         => 2#3
  | .illegalOp       => 3#3

/-- The 20-bit response word on the wires: `{status, warn, data}`; an error has `warn = 0` and `data = 0`
(rules R70, R154). -/
def Response.wire : Response → ResponseWord
  | .ok data warn => bitAt 20 16 warn ||| data.setWidth 20
  | .error e      => e.code.setWidth 20 <<< 17

/-- The command ends with this response; nothing else changes. -/
def State.respond (s : State) (r : Response) : State := { s with rsp := some r }

/-- `return (data, warn)`: the command ends with status `OK` (00_scope.md section 5). -/
def finish (data : Word) (warn : Bool) (s : State) : Host.Outcome State Fault Refusal :=
  .next (s.respond (.ok data warn))

/-- `raise E`: the command ends at once with status `E`, no data, and the state exactly as before; nothing is
saved, no mode changes, control goes nowhere, and there is no return from it (rules R154 to R156). This is
the block's one way of taking an exception. -/
def raise (e : ErrorStatus) (s : State) : Host.Outcome State Fault Refusal :=
  .next (s.respond (.error e))

/-! ### The configuration cache (10_state.md sections 1 to 3) -/

/-- A configuration word from its fields, bits 15:11 zero (format C, rules R60, R61, R132). -/
def packConfig (hyst : BitVec 2) (shdn critLock winLock intClear alertStat alertEn alertSel alertPol
    alertMode : Bool) : Word :=
  hyst.setWidth 16 <<< 9 ||| bitAt 16 8 shdn ||| bitAt 16 7 critLock ||| bitAt 16 6 winLock |||
    bitAt 16 5 intClear ||| bitAt 16 4 alertStat ||| bitAt 16 3 alertEn ||| bitAt 16 2 alertSel |||
    bitAt 16 1 alertPol ||| bitAt 16 0 alertMode

/-- `CFG.int_clear` is hard-wired 0: it reads false whatever the record holds (rule R17). -/
def Cfg.readIntClear (_ : Cfg) : Bool := false

/-- `CFG_IMG`, the canonical 16-bit image of the cache (rule R12). -/
def Cfg.image (c : Cfg) : Word :=
  packConfig c.hyst c.shdn c.critLock c.winLock c.readIntClear c.alertStat c.alertEn c.alertSel c.alertPol
    c.alertMode

/-- The fields of a configuration word (rule R121); bit 5 is not copied (rule R122) and bits 15:11 are
ignored (rule R123). -/
def Cfg.ofWord (w : Word) : Cfg where
  hyst      := w.extractLsb' 9 2
  shdn      := w.getLsbD 8
  critLock  := w.getLsbD 7
  winLock   := w.getLsbD 6
  intClear  := false
  alertStat := w.getLsbD 4
  alertEn   := w.getLsbD 3
  alertSel  := w.getLsbD 2
  alertPol  := w.getLsbD 1
  alertMode := w.getLsbD 0

/-- The whole-record load of the cache: all of `CFG`, and `CFG_VALID <- 1` (rules R23, R124). -/
def State.loadCache (s : State) (c : Cfg) : State := { s with cfgValid := true, cfg := c }

/-! ### The ports (rules R43, R65, R70, R181, R196) -/

/-- The host presents an event ahead of everything it has not yet presented. -/
def State.present (s : State) (e : PortEvent) : State := { s with pending := e :: s.pending }

/-- Accept the oldest presented event, if there is one. -/
def State.accept (s : State) : Option (PortEvent × State) :=
  match s.pending with
  | []        => none
  | e :: rest => some (e, { s with pending := rest })

/-- A step with nothing presented: no command is answered, nothing else changes (log entry 4). -/
def State.idle (s : State) : State := { s with rsp := none }

/-- The reset input: the state of rule R180 is put in place and no response is produced (rule R181; the
unspecified fields as in `State.reset`, log entries 1 and 5). What the host presents next is its own. -/
def State.takeReset (s : State) : State := { State.reset with pending := s.pending }

end Sys2Proof.Machine
end

