-- ==== Sys2Proof/Machine/Operands.lean ====
section
/-! DEFINITION. What the operands stand for: S16Q4 values (rule R56), the fields of a temperature word
(rules R50, R51), resolution levels (rule R54) and the override-or-default choice of `ENC_C` (rule R127). -/

namespace Sys2Proof.Machine

/-- The integer `N` of an S16Q4 pattern, standing for `N/16` degrees Celsius (rule R56). -/
def sixteenths (q : Word) : Int := q.toInt

/-- `s16(n)`, the 16-bit two's-complement pattern of an integer (00_scope.md section 5). -/
def s16 (n : Int) : Word := BitVec.ofInt 16 n

/-- `sign = w[12]` of a temperature word (rule R50). -/
def tempSign (w : Word) : Bool := w.getLsbD 12

/-- `I8 = {w[11:8], w[7:4]}`, 0 to 255 (rules R50, R85). -/
def tempIntegral (w : Word) : Nat := (concat 8 (w.extractLsb' 8 4) (w.extractLsb' 4 4)).toNat

/-- `frac = w[3:0]`, 0 to 15 (rule R50). -/
def tempFraction (w : Word) : Nat := (w.extractLsb' 0 4).toNat

/-- `N = 16*I8 + frac - 4096*sign` (rule R85): the temperature in sixteenths of a degree. -/
def tempSixteenths (w : Word) : Int :=
  16 * (tempIntegral w : Int) + (tempFraction w : Int) - 4096 * ((tempSign w).toNat : Int)

/-- Whether a byte is one of the four levels 0 to 3 (rules R54, R129). -/
def isLevel (b : Byte) : Bool := decide (b.toNat ≤ 3)

/-- The override where there is one, else the default (rule R128). -/
def pick {α : Type} (override : Option α) (default : α) : α := override.getD default

end Sys2Proof.Machine
end

