-- ==== Sys2Proof/Machine/Configuration.lean ====
section
/-! DEFINITION. The configuration codec and the cache commands, `DEC_C`, `LD_C`, `ENC_C` and `RD_C`
(42_config_codec.md). -/

namespace Sys2Proof.Machine

/-- `DEC_C` (rule R121): the field image of the word; the cache is not touched. -/
def execDecC (w : Word) (s : State) : Host.Outcome State Fault Refusal := finish (Cfg.ofWord w).image false s

/-- `LD_C` (rule R124): the same response, and the fields become the cache, whatever it held (rule R125). -/
def execLdC (w : Word) (s : State) : Host.Outcome State Fault Refusal :=
  finish (Cfg.ofWord w).image false (s.loadCache (Cfg.ofWord w))

/-- Whether an override asks for a hysteresis level that does not exist; an override that is not enabled
cannot be illegal (rule R129). -/
def hystIllegal (o : Overrides) : Bool :=
  match o.hyst with
  | some h => !isLevel h
  | none   => false

/-- Whether some field other than `int_clear` is left to the cache: `(en & 0x1EF) != 0x1EF`
(rules R127, R131). -/
def needsCache (o : Overrides) : Bool := o.en &&& 0x1EF#9 != 0x1EF#9

/-- The configuration word of `ENC_C`: each settable field from its override or the cache, `int_clear` from
its override or 0, and the read-only alert flag emitted as 0 (rules R127, R128, R132). -/
def encodeConfig (o : Overrides) (c : Cfg) : Word :=
  packConfig (pick (o.hyst.map (BitVec.extractLsb' 0 2)) c.hyst) (pick o.shdn c.shdn)
    (pick o.critLock c.critLock) (pick o.winLock c.winLock) (pick o.intClear c.readIntClear) false
    (pick o.alertEn c.alertEn) (pick o.alertSel c.alertSel) (pick o.alertPol c.alertPol)
    (pick o.alertMode c.alertMode)

/-- `ENC_C` (rule R127): ValidationError before NoCache (rule R158), else the word; the cache is not written
(rule R133). -/
def execEncC (o : Overrides) (s : State) : Host.Outcome State Fault Refusal :=
  if hystIllegal o then raise .validationError s
  else if !s.cfgValid && needsCache o then raise .noCache s
  else finish (encodeConfig o s.cfg) false s

/-- `RD_C` (rule R136): the image of a loaded cache. -/
def execRdC (s : State) : Host.Outcome State Fault Refusal :=
  if s.cfgValid then finish s.cfg.image false s else raise .noCache s

end Sys2Proof.Machine
end

