-- ==== Sys2Proof/Machine/Reserved.lean ====
section
/-! DEFINITION. The seven reserved operation codes 0x9 to 0xF: each ends with status IllegalOp, no data and no
change of state, and its operand is not looked at (rules R74, R153, R158). -/

namespace Sys2Proof.Machine

/-- `op` 0x9 (rule R74). -/
def execReserved9 (s : State) : Host.Outcome State Fault Refusal := raise .illegalOp s

/-- `op` 0xA (rule R74). -/
def execReservedA (s : State) : Host.Outcome State Fault Refusal := raise .illegalOp s

/-- `op` 0xB (rule R74). -/
def execReservedB (s : State) : Host.Outcome State Fault Refusal := raise .illegalOp s

/-- `op` 0xC (rule R74). -/
def execReservedC (s : State) : Host.Outcome State Fault Refusal := raise .illegalOp s

/-- `op` 0xD (rule R74). -/
def execReservedD (s : State) : Host.Outcome State Fault Refusal := raise .illegalOp s

/-- `op` 0xE (rule R74). -/
def execReservedE (s : State) : Host.Outcome State Fault Refusal := raise .illegalOp s

/-- `op` 0xF (rule R74). -/
def execReservedF (s : State) : Host.Outcome State Fault Refusal := raise .illegalOp s

end Sys2Proof.Machine
end

