-- ==== Sys2Proof/Machine/Resolution.lean ====
section
/-! DEFINITION. The resolution codec, `DEC_R` and `ENC_R` (41_resolution_codec.md): one byte passed through
when it is one of the four levels. -/

namespace Sys2Proof.Machine

/-- The passthrough of a level byte, or ValidationError (rule R110). -/
def passLevel (b : Byte) (s : State) : Host.Outcome State Fault Refusal :=
  if isLevel b then finish (b.setWidth 16) false s else raise .validationError s

/-- `DEC_R` (rule R111): the data is the level code. -/
def execDecR (b : Byte) (s : State) : Host.Outcome State Fault Refusal := passLevel b s

/-- `ENC_R` (rule R113): the data is the byte for sensor register 0x08. -/
def execEncR (b : Byte) (s : State) : Host.Outcome State Fault Refusal := passLevel b s

end Sys2Proof.Machine
end

