-- ==== Sys2Proof/Machine/Flags.lean ====
section
/-! DEFINITION. The flag computations. The block stores no flags (rule R27); the two it computes are the
`W_RANGE` warning of a response (rule R100) and the alert-trigger flags of a temperature word (rule R90). -/

namespace Sys2Proof.Machine

/-- `W_RANGE`: the limit is below -40 or above +125 degrees, bounds unflagged (rule R100). -/
def wRange (n : Int) : Bool := decide (n < -640) || decide (n > 2000)

/-- The alert-trigger flags as response data, `{0, crit, upper, lower}` from word bits 15, 14, 13
(rules R71, R90). -/
def alertFlags (w : Word) : Word :=
  bitAt 16 2 (w.getLsbD 15) ||| bitAt 16 1 (w.getLsbD 14) ||| bitAt 16 0 (w.getLsbD 13)

end Sys2Proof.Machine
end

