-- ==== Sys2Proof/Machine/Temperature.lean ====
section
/-! DEFINITION. The temperature codec, `DEC_T`, `DEC_F` and `ENC_L` (40_temperature_codec.md). The three are
pure: they neither read nor write the state (rule R80). Arithmetic is exact on the integers (rule R103):
`Int.tdiv` is `trunc` of the quotient and `%` on `Int` is `mod`. -/

namespace Sys2Proof.Machine

/-- `DEC_T` (rule R85). -/
def execDecT (w : Word) (s : State) : Host.Outcome State Fault Refusal := finish (s16 (tempSixteenths w)) false s

/-- `DEC_F` (rule R90). -/
def execDecF (w : Word) (s : State) : Host.Outcome State Fault Refusal := finish (alertFlags w) false s

/-- The legal limits, -128 to +127 degrees inclusive (rule R94). -/
def limitLegal (n : Int) : Bool := decide (-2048 ≤ n) && decide (n ≤ 2032)

/-- The sign flag bit (rule R95). -/
def limitSign (n : Int) : Nat := if n < 0 then 1 else 0

/-- The unsigned integral part 0 to 255, with the sentinel 0xFF for -1 < v < 0 (rule R96). -/
def limitIntegral (n : Int) : Nat :=
  if -16 < n ∧ n < 0 then 0xFF else (Int.tdiv n 16 % 256).toNat

/-- The 2-bit fraction, steps of 0.25 degrees (rule R97). -/
def limitFraction (n : Int) : Nat := (Int.tdiv (n - 16 * (limitIntegral n : Int)) 4 % 4).toNat

/-- `byte0 = (s << 4) | (I >> 4)` (rules R93, R98). -/
def limitByte0 (n : Int) : Byte := BitVec.ofNat 8 (limitSign n <<< 4 ||| limitIntegral n >>> 4)

/-- `byte1 = ((I << 4) | (f << 2)) & 0xFF` (rules R93, R98). -/
def limitByte1 (n : Int) : Byte :=
  BitVec.ofNat 8 ((limitIntegral n <<< 4 ||| limitFraction n <<< 2) &&& 0xFF)

/-- The limit word `{byte0, byte1}` (rules R52, R93). -/
def limitWord (n : Int) : Word := concat 16 (limitByte0 n) (limitByte1 n)

/-- `ENC_L` (rule R93): ValidationError outside the legal limits (rule R94), else the limit word with the
`W_RANGE` warning (rule R100). -/
def execEncL (q : Word) (s : State) : Host.Outcome State Fault Refusal :=
  if limitLegal (sixteenths q) then finish (limitWord (sixteenths q)) (wRange (sixteenths q)) s
  else raise .validationError s

end Sys2Proof.Machine
end

