-- ==== Sys2Proof/Machine/Dispatch.lean ====
section
/-! DEFINITION. The dispatch: one arm per row of spec/opcode_table.json (rules R73, R74), each one call of the
row's meaning. -/

namespace Sys2Proof.Machine

def exec (i : Instr) (s : State) : Host.Outcome State Fault Refusal :=
  match i with
  | .decT w => Sys2Proof.Machine.execDecT w s
  | .decF w => Sys2Proof.Machine.execDecF w s
  | .encL q => Sys2Proof.Machine.execEncL q s
  | .decR b => Sys2Proof.Machine.execDecR b s
  | .encR b => Sys2Proof.Machine.execEncR b s
  | .decC w => Sys2Proof.Machine.execDecC w s
  | .ldC w => Sys2Proof.Machine.execLdC w s
  | .encC o => Sys2Proof.Machine.execEncC o s
  | .rdC => Sys2Proof.Machine.execRdC s
  | .reserved9 => Sys2Proof.Machine.execReserved9 s
  | .reservedA => Sys2Proof.Machine.execReservedA s
  | .reservedB => Sys2Proof.Machine.execReservedB s
  | .reservedC => Sys2Proof.Machine.execReservedC s
  | .reservedD => Sys2Proof.Machine.execReservedD s
  | .reservedE => Sys2Proof.Machine.execReservedE s
  | .reservedF => Sys2Proof.Machine.execReservedF s

end Sys2Proof.Machine
end

