-- ==== Sys2Proof/Machine/Step.lean ====
section
/-! DEFINITION. One step of the block: one presented event. A command is decoded, executed and answered as one
atomic step (rules R41, R196); the reset input is taken (rule R181); with nothing presented the block idles
(log entry 4). There is no program counter and no fetch (rule R26): the host presents the commands. -/

namespace Sys2Proof.Machine

/-- One step. -/
def step (s : State) : Host.Outcome State Fault Refusal :=
  match s.accept with
  | none                  => .next s.idle
  | some (.resetInput, t) => .next t.takeReset
  | some (.command c, t)  => exec (decode c) t

/-- The state with the command number `w` (its low `nbits` bits) presented ahead of everything else, so that
the next step runs it. -/
def State.withFetchWord (s : State) (nbits w : Nat) : State :=
  s.present (.command (BitVec.ofNat 36 (w % 2 ^ nbits)))

end Sys2Proof.Machine
end

