-- ==== Sys2Proof/Machine/WireModel.lean ====
section
/-! DEFINITION. A second reading of the block on the wires: the cache kept as the 16-bit image of rule R12 ("a
model may keep the cache either as the record or as this 16-bit value"), commands and responses as raw words,
and the spec's mask and closed forms in place of its field-by-field pseudocode. It shares no operation with
`exec`; that the two agree is a statement (RecordModelRefinesImageModel). -/

namespace Sys2Proof.Machine

/-- `CFG_VALID` and `CFG_IMG`. -/
structure WireState where
  valid : Bool
  img   : Word
  deriving DecidableEq, Repr

/-- The image view of a state. -/
def State.wireState (s : State) : WireState := ⟨s.cfgValid, s.cfg.image⟩

/-- `{status = 0, warn, data}`. -/
def wireOk (warn : Bool) (data : Word) : ResponseWord := (if warn then 0x10000#20 else 0#20) ||| data.setWidth 20

/-- `DEC_T` as sign extension from 13 bits (rule R85). -/
def wireDecT (w : Word) : ResponseWord := wireOk false ((w.setWidth 13).signExtend 16)

/-- `ENC_L` by its closed form (rule R99), with the bounds of rules R94 and R100 on the pattern's value. -/
def wireEncL (q : Word) : ResponseWord :=
  if q.toInt < -2048 ∨ 2032 < q.toInt then 0x20000#20
  else wireOk (decide (q.toInt < -640 ∨ 2000 < q.toInt))
    (if 0 ≤ q.toInt then q &&& 0x0FFC#16
     else
       0x1000#16 ||| BitVec.ofNat 16 (if (-q.toInt).toNat / 16 = 0 then 0xFF0 else (256 - (-q.toInt).toNat / 16) * 16) |||
         BitVec.ofNat 16 ((4 - (-q.toInt).toNat % 16 / 4) % 4 * 4))

/-- `DEC_R` and `ENC_R` on the low byte of the command. -/
def wireLevel (c : Command) : ResponseWord :=
  if c.extractLsb' 2 6 = 0#6 then wireOk false ((c.extractLsb' 0 2).setWidth 16) else 0x20000#20

/-- One enable bit widened to a mask of configuration-word positions. -/
def wireMask (enable : Bool) (positions : Word) : Word := if enable then positions else 0#16

/-- The configuration-word positions that the enables `arg[8:0]` override. -/
def wireOverridden (c : Command) : Word :=
  wireMask (c.getLsbD 0) 0x0600#16 ||| wireMask (c.getLsbD 1) 0x0100#16 ||| wireMask (c.getLsbD 2) 0x0080#16 |||
    wireMask (c.getLsbD 3) 0x0040#16 ||| wireMask (c.getLsbD 4) 0x0020#16 ||| wireMask (c.getLsbD 5) 0x0008#16 |||
    wireMask (c.getLsbD 6) 0x0004#16 ||| wireMask (c.getLsbD 7) 0x0002#16 ||| wireMask (c.getLsbD 8) 0x0001#16

/-- The override values moved to their configuration-word positions. -/
def wireGiven (c : Command) : Word :=
  (c.extractLsb' 16 2).setWidth 16 <<< 9 ||| wireMask (c.getLsbD 24) 0x0100#16 ||| wireMask (c.getLsbD 25) 0x0080#16 |||
    wireMask (c.getLsbD 26) 0x0040#16 ||| wireMask (c.getLsbD 27) 0x0020#16 ||| wireMask (c.getLsbD 28) 0x0008#16 |||
    wireMask (c.getLsbD 29) 0x0004#16 ||| wireMask (c.getLsbD 30) 0x0002#16 ||| wireMask (c.getLsbD 31) 0x0001#16

/-- `ENC_C` by masks (rules R127 to R132). -/
def wireEncC (c : Command) (m : WireState) : ResponseWord :=
  if c.getLsbD 0 ∧ c.extractLsb' 18 6 ≠ 0#6 then 0x20000#20
  else if m.valid = false ∧ c &&& 0x1EF#36 ≠ 0x1EF#36 then 0x40000#20
  else wireOk false ((wireGiven c &&& wireOverridden c) ||| (m.img &&& 0x07CF#16 &&& ~~~wireOverridden c))

/-- The response word of a command (rule R70). -/
def wireResponse (c : Command) (m : WireState) : ResponseWord :=
  match (c.extractLsb' 32 4).toNat with
  | 0 => wireDecT (c.setWidth 16)
  | 1 => wireOk false (c.setWidth 16 >>> 13)
  | 2 => wireEncL (c.setWidth 16)
  | 3 => wireLevel c
  | 4 => wireLevel c
  | 5 => wireOk false (c.setWidth 16 &&& 0x07DF#16)
  | 6 => wireOk false (c.setWidth 16 &&& 0x07DF#16)
  | 7 => wireEncC c m
  | 8 => if m.valid then wireOk false m.img else 0x40000#20
  | _ => 0x60000#20

/-- The cache after a command: `LD_C` alone writes it (rules R23, R124). -/
def wireNext (c : Command) (m : WireState) : WireState :=
  if c.extractLsb' 32 4 = 6#4 then ⟨true, c.setWidth 16 &&& 0x07DF#16⟩ else m

end Sys2Proof.Machine
end

