-- ==== Sys2Proof/Config.lean ====
section
/-! DEFINITION. What the spec leaves to the platform. Every parameter of the block has a fixed value
(00_scope.md section 4); the two below are the host's, open in the spec, and given no body here, so no
proof can rest on a value of them. -/

namespace Sys2Proof

/-- `DeviceAddress`, the 7-bit bus address of the one sensor of a session (rule R45; 91_not_in_source.md
N13 gives no value). The block never sees it. -/
opaque Config.deviceAddress : BitVec 7

/-- `ExpectedRevision`, the device revision "this driver was validated against" (rule R164;
91_not_in_source.md N13 gives no value). Used for a non-fatal diagnostic only. -/
opaque Config.expectedRevision : Byte

end Sys2Proof
end

