-- ==== Sys2Proof/Machine/SensorMap.lean ====
section
/-! DEFINITION. The sensor's register map as the host addresses it, and the byte order of its words
(20_memory.md rules R31 to R34). The sensor is outside the block. -/

namespace Sys2Proof.Machine

/-- The offset of a register, "must match exactly" (rule R31). -/
def regOffset : SensorReg → Byte
  | .config         => 0x01#8
  | .alertUpper     => 0x02#8
  | .alertLower     => 0x03#8
  | .alertCritical  => 0x04#8
  | .temperature    => 0x05#8
  | .manufacturerId => 0x06#8
  | .deviceId       => 0x07#8
  | .resolution     => 0x08#8

/-- The number of bytes one transfer of the register moves (rule R34). -/
def regBytes : SensorReg → Nat
  | .resolution => 1
  | .config | .alertUpper | .alertLower | .alertCritical | .temperature | .manufacturerId | .deviceId => 2

/-- The register of an alert limit (rule R76). -/
def limitReg : LimitKind → SensorReg
  | .upper    => .alertUpper
  | .lower    => .alertLower
  | .critical => .alertCritical

/-- Big-endian: the first byte on the bus is `w[15:8]` (rule R33). -/
def wordOfBytes (byte0 byte1 : Byte) : Word := concat 16 byte0 byte1

/-- The bytes of a word in bus order (rule R33). -/
def bytesOfWord (w : Word) : List Byte := [w.extractLsb' 8 8, w.extractLsb' 0 8]

end Sys2Proof.Machine
end

