-- ==== Sys2Proof/Machine/Session.lean ====
section
/-! DEFINITION. The host contract (60_exceptions.md section 5): what the source's device session does around the
block, as plain functions. The session drives the block through `step` only. The sensor and the bus are a
premise (93_implementation_defined.md U16): a list of replies, one per transfer, about which nothing is assumed
(log entry 10). The session is not part of the block's state. -/

namespace Sys2Proof.Machine

/-- What the bus collaborator answers to one transfer (rule R44). -/
inductive BusReply where
  /-- a read returned these bytes -/
  | bytes (bs : List Byte)
  /-- a write was carried out on the bus (the sensor may still have refused it silently, rule R37) -/
  | written
  /-- the transfer failed (rule R162) -/
  | transportError
  deriving DecidableEq, Repr

/-- The events of the diagnostic channel (rule R165): none of them is an error. -/
inductive Diagnostic where
  /-- the limit is outside the operating range (rules R160, R167) -/
  | limitUnreachable (which : LimitKind)
  /-- the limit read back differs from the bytes written (rules R163, R167) -/
  | limitDivergence (which : LimitKind)
  /-- a field of the reloaded configuration differs from the requested value (rules R163, R166) -/
  | configDivergence
  /-- the resolution byte read back differs from the byte written (rules R163, R168) -/
  | resolutionDivergence
  /-- the device revision is not the validated one (rule R164) -/
  | revisionMismatch
  deriving DecidableEq, Repr

/-- Why a session operation failed. -/
inductive SessionError where
  /-- the block answered a status other than `OK`; the operation stops there (rule R156) -/
  | blockError (e : ErrorStatus)
  /-- manufacturer or device ID mismatch (rule R161) -/
  | identityError
  /-- the bus operation failed; propagated, not retried (rule R162) -/
  | transportError
  /-- the premise gave no reply that fits the transfer: not a behaviour of the bus contract (log entry 10) -/
  | premiseViolated
  deriving DecidableEq, Repr

/-- A session: the block, the bus replies still to come, and what the host has done so far, oldest first. -/
structure Session where
  block       : State
  replies     : List BusReply
  transfers   : List Transfer
  diagnostics : List Diagnostic
  deriving DecidableEq, Repr

/-- How a session operation ended, and the session after it. -/
inductive SessionOutcome (α : Type) where
  | done (value : α) (after : Session)
  | failed (e : SessionError) (after : Session)
  deriving Repr

/-- The session after an operation, however it ended. -/
def SessionOutcome.session {α : Type} : SessionOutcome α → Session
  | .done _ h   => h
  | .failed _ h => h

/-- Go on only after success: "the macro stops there and no later step runs" (rule R76). -/
def SessionOutcome.andThen {α β : Type} (x : SessionOutcome α) (f : α → Session → SessionOutcome β) :
    SessionOutcome β :=
  match x with
  | .done a h   => f a h
  | .failed e h => .failed e h

/-- Emit a diagnostic; never an error (rule R163). -/
def Session.diagnose (h : Session) (d : Diagnostic) : Session :=
  { h with diagnostics := h.diagnostics ++ [d] }

/-- Emit a diagnostic when a condition holds. -/
def Session.diagnoseIf (h : Session) (b : Bool) (d : Diagnostic) : Session :=
  if b then h.diagnose d else h

/-- Issue one block command: present its command word, take one step, read the response. -/
def Session.issue (h : Session) (i : Instr) : SessionOutcome (Word × Bool) :=
  match step (h.block.present (.command (encode i))) with
  | .next t =>
    match t.rsp with
    | some (.ok data warn) => .done (data, warn) { h with block := t }
    | some (.error e)      => .failed (.blockError e) { h with block := t }
    | none                 => .failed .premiseViolated { h with block := t }
  | .fault r => nomatch r
  | .refused _ => .failed .premiseViolated h

/-- Assert the block's reset input, which the host owes at session end and sensor power-off (rule R181). -/
def Session.resetBlock (h : Session) : Session :=
  match step (h.block.present .resetInput) with
  | .next t    => { h with block := t }
  | .fault r   => nomatch r
  | .refused _ => h

/-- Perform one transfer: it is recorded, and the next reply of the premise is taken. -/
def Session.transfer (h : Session) (t : Transfer) : SessionOutcome BusReply :=
  match h.replies with
  | []      => .failed .premiseViolated { h with transfers := h.transfers ++ [t] }
  | r :: rs => .done r { h with replies := rs, transfers := h.transfers ++ [t] }

/-- `BusRead(reg, n)` of the whole register (rules R34, R44). -/
def Session.busRead (h : Session) (reg : SensorReg) : SessionOutcome (List Byte) :=
  (h.transfer (.read Config.deviceAddress (regOffset reg) (regBytes reg))).andThen fun r h =>
    match r with
    | .bytes bs       => if bs.length = regBytes reg then .done bs h else .failed .premiseViolated h
    | .transportError => .failed .transportError h
    | .written        => .failed .premiseViolated h

/-- `BusRead` of a 2-byte register, as the word the host presents to the block (rule R33). -/
def Session.readWord (h : Session) (reg : SensorReg) : SessionOutcome Word :=
  (h.busRead reg).andThen fun bs h =>
    match bs with
    | [byte0, byte1] => .done (wordOfBytes byte0 byte1) h
    | _              => .failed .premiseViolated h

/-- `BusWrite(reg, bytes)` (rule R44). -/
def Session.busWrite (h : Session) (reg : SensorReg) (bs : List Byte) : SessionOutcome Unit :=
  (h.transfer (.write Config.deviceAddress (regOffset reg) bs)).andThen fun r h =>
    match r with
    | .written        => .done () h
    | .transportError => .failed .transportError h
    | .bytes _        => .failed .premiseViolated h

/-- Re-read the configuration register into the cache: `BusRead(0x01, 2)`, then `LD_C` (rules R49, R183).
The result is the reloaded ConfigurationState. -/
def Session.reload (h : Session) : SessionOutcome Cfg :=
  (h.readWord .config).andThen fun r h =>
    (h.issue (.ldC r)).andThen fun rsp h => .done (Cfg.ofWord rsp.1) h

/-- `INIT` against a validated revision: identity check, then the seeding of the cache (rule R170). -/
def Session.initAgainst (h : Session) (revision : Byte) : SessionOutcome Cfg :=
  (h.readWord .manufacturerId).andThen fun m h =>
    if m = wordOfBytes 0x00#8 0x54#8 then
      (h.readWord .deviceId).andThen fun d h =>
        if d.extractLsb' 8 8 = 0x04#8 then
          (h.diagnoseIf (d.extractLsb' 0 8 != revision) .revisionMismatch).reload
        else .failed .identityError h
    else .failed .identityError h

/-- `INIT` (rule R170), with the revision the platform fixes. -/
def Session.init (h : Session) : SessionOutcome Cfg := h.initAgainst Config.expectedRevision

/-- Whether a requested value differs from the value the field has. -/
def differs {α : Type} [DecidableEq α] (requested : Option α) (actual : α) : Bool :=
  match requested with
  | some v => !decide (v = actual)
  | none   => false

/-- Whether some field of the reloaded state differs from the value requested for it; `int_clear` is left out
of the comparison (rules R166, R190). -/
def diverges (o : Overrides) (c : Cfg) : Bool :=
  differs o.hyst (c.hyst.setWidth 8) || differs o.shdn c.shdn || differs o.critLock c.critLock ||
    differs o.winLock c.winLock || differs o.alertEn c.alertEn || differs o.alertSel c.alertSel ||
    differs o.alertPol c.alertPol || differs o.alertMode c.alertMode

/-- `APPLY_CFG` (rule R166): encode, write, unconditionally re-read, report a Divergence. -/
def Session.applyCfg (h : Session) (o : Overrides) : SessionOutcome Cfg :=
  (h.issue (.encC o)).andThen fun c h =>
    (h.busWrite .config (bytesOfWord c.1)).andThen fun _ h =>
      h.reload.andThen fun cfg h => .done cfg (h.diagnoseIf (diverges o cfg) .configDivergence)

/-- `SET_LIMIT which, t` with `t` in S16Q4 (rule R167): encode, write, read back, compare the bytes. -/
def Session.setLimit (h : Session) (which : LimitKind) (t : Word) : SessionOutcome Unit :=
  (h.issue (.encL t)).andThen fun c h =>
    ((h.diagnoseIf c.2 (.limitUnreachable which)).busWrite (limitReg which) (bytesOfWord c.1)).andThen fun _ h =>
      (h.busRead (limitReg which)).andThen fun r h =>
        .done () (h.diagnoseIf (r != bytesOfWord c.1) (.limitDivergence which))

/-- `READ_TEMP` (rule R169): the temperature in S16Q4. -/
def Session.readTemp (h : Session) : SessionOutcome Word :=
  (h.readWord .temperature).andThen fun r h => (h.issue (.decT r)).andThen fun c h => .done c.1 h

/-- `READ_FLAGS` (rule R169): (critical, upper, lower), by a read of its own. -/
def Session.readFlags (h : Session) : SessionOutcome (Bool × Bool × Bool) :=
  (h.readWord .temperature).andThen fun r h =>
    (h.issue (.decF r)).andThen fun c h => .done (c.1.getLsbD 2, c.1.getLsbD 1, c.1.getLsbD 0) h

/-- `SET_RES level` (rule R168): validate, write one byte, read back, compare. -/
def Session.setRes (h : Session) (level : Byte) : SessionOutcome Unit :=
  (h.issue (.encR level)).andThen fun c h =>
    (h.busWrite .resolution [c.1.extractLsb' 0 8]).andThen fun _ h =>
      (h.busRead .resolution).andThen fun r h =>
        .done () (h.diagnoseIf (r != [c.1.extractLsb' 0 8]) .resolutionDivergence)

/-! ### The per-field operations (rule R137): `APPLY_CFG` with one override -/

/-- No override. -/
def noOverrides : Overrides where
  hyst      := none
  shdn      := none
  critLock  := none
  winLock   := none
  intClear  := none
  alertEn   := none
  alertSel  := none
  alertPol  := none
  alertMode := none

/-- Set the hysteresis mode to a level. -/
def Session.setHysteresis (h : Session) (level : Byte) : SessionOutcome Cfg :=
  h.applyCfg { noOverrides with hyst := some level }

/-- Enable or disable (wake from) shutdown. -/
def Session.setShutdown (h : Session) (on : Bool) : SessionOutcome Cfg :=
  h.applyCfg { noOverrides with shdn := some on }

/-- Lock or unlock the critical limit. -/
def Session.setCriticalLock (h : Session) (on : Bool) : SessionOutcome Cfg :=
  h.applyCfg { noOverrides with critLock := some on }

/-- Lock or unlock the window limits. -/
def Session.setWindowLock (h : Session) (on : Bool) : SessionOutcome Cfg :=
  h.applyCfg { noOverrides with winLock := some on }

/-- Request an interrupt clear. -/
def Session.clearInterrupt (h : Session) : SessionOutcome Cfg :=
  h.applyCfg { noOverrides with intClear := some true }

/-- Enable or disable the alert output. -/
def Session.setAlertEnable (h : Session) (on : Bool) : SessionOutcome Cfg :=
  h.applyCfg { noOverrides with alertEn := some on }

/-- Select the alert threshold source. -/
def Session.setAlertSelect (h : Session) (v : Bool) : SessionOutcome Cfg :=
  h.applyCfg { noOverrides with alertSel := some v }

/-- Set the alert polarity. -/
def Session.setAlertPolarity (h : Session) (v : Bool) : SessionOutcome Cfg :=
  h.applyCfg { noOverrides with alertPol := some v }

/-- Set the alert mode. -/
def Session.setAlertMode (h : Session) (v : Bool) : SessionOutcome Cfg :=
  h.applyCfg { noOverrides with alertMode := some v }

end Sys2Proof.Machine
end

