-- ==== Sys2Proof/Safety.lean ====
section
/-! DEFINITION. What counts as a good state and a safe run of the block and of the host around it, in the terms
the statements use. -/

namespace Sys2Proof.Safety

open Sys2Proof.Machine

/-- A response word the spec allows (rule R70): the status is 0 to 3; an error has `warn = 0` and `data = 0`; and
data flagged by `warn` is a limit word, bits 15:13 and 1:0 zero, since only `ENC_L` sets `warn` (rules R52, R160). -/
def LegalResponseWord (r : ResponseWord) : Prop :=
  r.getLsbD 19 = false ∧
    (r.extractLsb' 17 3 ≠ 0#3 → r.extractLsb' 0 17 = 0#17) ∧
    (r.getLsbD 16 = true → r &&& 0x0E003#20 = 0#20)

/-- The invariant of the block: the hard-wired interrupt-clear field holds 0 (rules R17, R180), and the response
port, when it holds a response, holds a word the spec allows. -/
def Inv (s : State) : Prop :=
  s.cfg.intClear = false ∧ ∀ r, s.rsp = some r → LegalResponseWord r.wire

/-- The cache holds the fields of a configuration word `w` (rules R11, R12, R29). With `w` the sensor's register
this is freshness; its negation is staleness, "not a bit anywhere" but a relation to a register outside. -/
def CacheHolds (s : State) (w : Word) : Prop := s.cfgValid = true ∧ s.cfg = Cfg.ofWord w

/-- Two states that agree in everything the spec makes observable: the contents of `CFG` count only while
`CFG_VALID = 1` (rules R11, R180). -/
def SameObservable (s t : State) : Prop :=
  s.cfgValid = t.cfgValid ∧ (s.cfgValid = true → s.cfg = t.cfg) ∧ s.pending = t.pending ∧ s.rsp = t.rsp

/-- The commands that neither read nor write the state (rule R23): all but `LD_C`, `ENC_C` and `RD_C`. -/
def StateFree : Instr → Prop
  | .ldC _ | .encC _ | .rdC => False
  | .decT _ | .decF _ | .encL _ | .decR _ | .encR _ | .decC _ | .reserved9 | .reservedA | .reservedB
  | .reservedC | .reservedD | .reservedE | .reservedF => True

/-- The sensor's lock latches, as a premise about what a configuration register reads back (rule R38): a lock bit
once set stays set. -/
def LocksHold (before readBack : Word) : Prop :=
  (before.getLsbD 7 = true → readBack.getLsbD 7 = true) ∧ (before.getLsbD 6 = true → readBack.getLsbD 6 = true)

/-- The lock bit of a configuration word that covers a limit register: bit 7 the critical limit, bit 6 the window
limits, read as upper and lower (rule R38; DEDUCED, log entry 13). -/
def lockBit (which : LimitKind) (config : Word) : Bool :=
  match which with
  | .critical       => config.getLsbD 7
  | .upper | .lower => config.getLsbD 6

/-- The sensor refuses a limit write under its lock, as a premise about what the limit register reads back
(rule R38): while the lock bit is set it holds the old word. -/
def LockedLimitHolds (which : LimitKind) (config old readBack : Word) : Prop :=
  lockBit which config = true → readBack = old

/-- What the sensor's resolution level leaves zero in a temperature word, as a premise (rule R40, marked there as
derived): bits 2:0 at level 0, bits 1:0 at level 1, bit 0 at level 2, nothing at level 3. The order of the codes is
rule R54's listing order, a choice (DESIGN CHOICE, log entry 16). -/
def LowBitsZero (level : BitVec 2) (w : Word) : Prop := w.toNat % 2 ^ (3 - level.toNat) = 0

/-- Every transfer the host has made addresses a register of the map whole (rules R32, R34, R36). -/
def TransfersLegal (h : Session) : Prop := ∀ t ∈ h.transfers, t.wellFormed = true

/-- The bits of a command word that its layout uses (rules R66, R69): the operation code always; `arg[15:0]` in
layouts W and Q; `arg[7:0]` in layout B; the enables and the values of the enabled overrides in layout O;
nothing else in layout N and for reserved codes. -/
def usedBits (c : Command) : Command :=
  match (c.extractLsb' 32 4).toNat with
  | 0 | 1 | 2 | 5 | 6 => 0xF0000FFFF#36
  | 3 | 4 => 0xF000000FF#36
  | 7 =>
    0xF000001FF#36 ||| (if c.getLsbD 0 then 0x000FF0000#36 else 0#36) |||
      (if c.getLsbD 1 then 0x001000000#36 else 0#36) ||| (if c.getLsbD 2 then 0x002000000#36 else 0#36) |||
      (if c.getLsbD 3 then 0x004000000#36 else 0#36) ||| (if c.getLsbD 4 then 0x008000000#36 else 0#36) |||
      (if c.getLsbD 5 then 0x010000000#36 else 0#36) ||| (if c.getLsbD 6 then 0x020000000#36 else 0#36) |||
      (if c.getLsbD 7 then 0x040000000#36 else 0#36) ||| (if c.getLsbD 8 then 0x080000000#36 else 0#36)
  | _ => 0xF00000000#36

/-- The hysteresis override of `ENC_C`, if enabled, is one of the four levels (rule R129). -/
def HystLegal (o : Overrides) : Prop := ∀ h, o.hyst = some h → h.toNat ≤ 3

/-- Every field but `int_clear` is overridden, so the cache is not needed (rule R131). -/
abbrev AllCachedOverridden (o : Overrides) : Prop :=
  o.hyst.isSome ∧ o.shdn.isSome ∧ o.critLock.isSome ∧ o.winLock.isSome ∧ o.alertEn.isSome ∧
    o.alertSel.isSome ∧ o.alertPol.isSome ∧ o.alertMode.isSome

/-- `ENC_C` ends with a word: its overrides are legal and every field it needs is there (rules R129, R131). -/
def CanEncode (o : Overrides) (s : State) : Prop := HystLegal o ∧ (s.cfgValid = true ∨ AllCachedOverridden o)

/-- Two caches hold the same value in every field that `ENC_C` would take from them (rules R23, R127). -/
def SameDefaults (o : Overrides) (c d : Cfg) : Prop :=
  (o.hyst = none → c.hyst = d.hyst) ∧ (o.shdn = none → c.shdn = d.shdn) ∧
    (o.critLock = none → c.critLock = d.critLock) ∧ (o.winLock = none → c.winLock = d.winLock) ∧
    (o.alertEn = none → c.alertEn = d.alertEn) ∧ (o.alertSel = none → c.alertSel = d.alertSel) ∧
    (o.alertPol = none → c.alertPol = d.alertPol) ∧ (o.alertMode = none → c.alertMode = d.alertMode)

end Sys2Proof.Safety
end

