-- ==== Sys2Proof/Certificates/Slice0/Obligations.lean ====
section
/-! DEFINITION. The statements about the block and about the host around it, for the provers. Each docstring names
the rule of spec/ it formalises. `{ s with rsp := some r }` as a next state is the command's whole frame: only the
response port differs from the state before. -/

open Sys2Proof Sys2Proof.Machine Sys2Proof.Safety

/-! ### Encoding and the step -/

/-- Rules R73 to R75: command words written out from the spec's tables decode to their commands. -/
def Obligations.SpecCommandWordsDecode : Prop :=
  decode 0x00000C1A4#36 = .decT 0xC1A4#16 ∧
    decode 0x10000A000#36 = .decF 0xA000#16 ∧
    decode 0x20000FFFC#36 = .encL 0xFFFC#16 ∧
    decode 0x3FFFFFF02#36 = .decR 0x02#8 ∧
    decode 0x400000005#36 = .encR 0x05#8 ∧
    decode 0x50000F820#36 = .decC 0xF820#16 ∧
    decode 0x600000408#36 = .ldC 0x0408#16 ∧
    decode 0x700020001#36 = .encC { noOverrides with hyst := some 2#8 } ∧
    decode 0x8DEADBEEF#36 = .rdC ∧
    decode 0x900000000#36 = .reserved9 ∧
    decode 0xA00001234#36 = .reservedA ∧
    decode 0xFFFFFFFFF#36 = .reservedF

/-- Rules R65, R66, R69, R73: no operand bit is lost; decoding an encoded instruction gives it back. -/
def Obligations.DecodeOfEncodeIsIdentity : Prop := ∀ i : Instr, decode (encode i) = i

/-- Rules R65, R66, R75, the other direction: encoding a decoded command word gives the word with its ignored bits
cleared. -/
def Obligations.EncodeOfDecodeClearsIgnoredBits : Prop := ∀ c : Command, encode (decode c) = c &&& usedBits c

/-- Rule R66: the bits a layout ignores have no effect on the response or the state. -/
def Obligations.IgnoredBitsHaveNoEffect : Prop :=
  ∀ (c d : Command) (s : State), c &&& usedBits c = d &&& usedBits d →
    step (s.present (.command c)) = step (s.present (.command d))

/-- Rules R26, R43, R196: one step accepts the oldest presented command and is `exec` of what it decodes to. -/
def Obligations.StepRunsDecodedCommand : Prop :=
  ∀ (s : State) (c : Command) (rest : List PortEvent), s.pending = .command c :: rest →
    step s = exec (decode c) { s with pending := rest }

/-- Rules R180, R181: the reset input invalidates the cache and produces no response. That the host's further
events stay presented is the model's (log entries 2 and 5). -/
def Obligations.StepTakesResetInput : Prop :=
  ∀ (s : State) (rest : List PortEvent), s.pending = .resetInput :: rest →
    ∃ t, step s = .next t ∧ t.cfgValid = false ∧ t.cfg.intClear = false ∧ t.rsp = none ∧ t.pending = rest

/-- The model's choice (log entry 4): with nothing presented a step changes nothing and answers nothing. -/
def Obligations.StepWithNothingPresentedIdles : Prop :=
  ∀ s : State, s.pending = [] → step s = .next { s with rsp := none }

/-- Rule R153: every 36-bit word is answered with one response, and with IllegalOp exactly for the reserved codes. -/
def Obligations.EveryCommandWordIsAnswered : Prop :=
  ∀ (c : Command) (s : State), ∃ t r, step (s.present (.command c)) = .next t ∧ t.rsp = some r ∧
    t.pending = s.pending ∧ (r = .error .illegalOp ↔ 9 ≤ (c.extractLsb' 32 4).toNat)

/-- Rules R74, R158: a command with a reserved `op` ends with IllegalOp, no data and no change of state, whatever
its operand; and so does each reserved instruction. -/
def Obligations.ReservedCodesAnswerIllegalOp : Prop :=
  (∀ (c : Command) (s : State), 9 ≤ (c.extractLsb' 32 4).toNat →
    step (s.present (.command c)) = .next { s with rsp := some (.error .illegalOp) }) ∧
  ∀ (i : Instr) (s : State),
    i ∈ [Instr.reserved9, .reservedA, .reservedB, .reservedC, .reservedD, .reservedE, .reservedF] →
      exec i s = .next { s with rsp := some (.error .illegalOp) }

/-! ### Temperature codec -/

/-- Rule R85: `DEC_T` gives `N = 16*I8 + frac - 4096*sign`, that is the sign extension of bits 12:0. -/
def Obligations.DecTSignExtendsThirteenBits : Prop :=
  ∀ (w : Word) (s : State), ∃ data : Word,
    exec (.decT w) s = .next { s with rsp := some (.ok data false) } ∧
      data.toInt = 16 * ((w.extractLsb' 4 8).toNat : Int) + ((w.extractLsb' 0 4).toNat : Int)
        - 4096 * ((w.getLsbD 12).toNat : Int) ∧
      data = (w.extractLsb' 0 13).signExtend 16 ∧
      data = BitVec.ofBool (w.getLsbD 12) ++ BitVec.ofBool (w.getLsbD 12) ++ BitVec.ofBool (w.getLsbD 12) ++
        w.extractLsb' 0 13

/-- Rule R86: bits 15:13 do not matter, and nothing else is ignored: one result per value of bits 12:0. -/
def Obligations.DecTDependsOnLowThirteenBitsOnly : Prop :=
  ∀ (w v : Word) (s : State), exec (.decT w) s = exec (.decT v) s ↔ w &&& 0x1FFF#16 = v &&& 0x1FFF#16

/-- Rule R87: the range of `DEC_T` by its sign bit; `data[15:12]` is four copies of it; no word is refused. -/
def Obligations.DecTRangeFollowsSignBit : Prop :=
  ∀ (w : Word) (s : State), ∃ data : Word, exec (.decT w) s = .next { s with rsp := some (.ok data false) } ∧
    (w.getLsbD 12 = true → -4096 ≤ data.toInt ∧ data.toInt ≤ -1) ∧
    (w.getLsbD 12 = false → 0 ≤ data.toInt ∧ data.toInt ≤ 4095) ∧
    (∀ k, 12 ≤ k → k < 16 → data.getLsbD k = w.getLsbD 12)

/-- Rule R88: `DEC_T` takes no resolution; a word read at a coarser level decodes by the same rule, to a multiple of
that level's step (0.5, 0.25, 0.125 or 0.0625 degrees, that is 8, 4, 2 or 1 sixteenths). That the codes 0 to 3 stand
for these steps in this order is a choice (the listing order of rule R54, which the spec marks as its decision D14;
log entry 16, DESIGN CHOICE), and which low bits a level leaves zero is the inference rule R40 marks as derived; both
enter through the premise `LowBitsZero` and the modulus. -/
def Obligations.DecTDecodesEveryResolution : Prop :=
  ∀ (level : BitVec 2) (w : Word) (s : State), LowBitsZero level w →
    ∃ data : Word, exec (.decT w) s = .next { s with rsp := some (.ok data false) } ∧
      data = (w.extractLsb' 0 13).signExtend 16 ∧ data.toInt % (2 ^ (3 - level.toNat) : Int) = 0

/-- Rule R90: `DEC_F` gives word bits 15, 14, 13 at data bits 2, 1, 0 and zeros above. -/
def Obligations.DecFGivesAlertFlags : Prop :=
  ∀ (w : Word) (s : State), ∃ data : Word, exec (.decF w) s = .next { s with rsp := some (.ok data false) } ∧
    data.getLsbD 2 = w.getLsbD 15 ∧ data.getLsbD 1 = w.getLsbD 14 ∧ data.getLsbD 0 = w.getLsbD 13 ∧
    data.extractLsb' 3 13 = 0#13 ∧ data = w >>> 13

/-- Rule R94: `ENC_L` raises ValidationError outside -2048 to 2032 and answers a word inside. -/
def Obligations.EncLValidatesItsOperand : Prop :=
  ∀ (q : Word) (s : State),
    (q.toInt < -2048 ∨ 2032 < q.toInt →
      exec (.encL q) s = .next { s with rsp := some (.error .validationError) }) ∧
    (-2048 ≤ q.toInt ∧ q.toInt ≤ 2032 →
      ∃ data warn, exec (.encL q) s = .next { s with rsp := some (.ok data warn) })

/-- Rules R95 to R98: sign, integral part, fraction (by the formula and by its closed form) and packing of the limit
word, field by field. -/
def Obligations.EncLFieldsOfTheLimitWord : Prop :=
  ∀ (q : Word) (s : State), -2048 ≤ q.toInt → q.toInt ≤ 2032 →
    ∃ (data : Word) (warn : Bool), exec (.encL q) s = .next { s with rsp := some (.ok data warn) } ∧
      (data.getLsbD 12 = true ↔ q.toInt < 0) ∧
      ((data.extractLsb' 4 8).toNat : Int) =
        (if 0 ≤ q.toInt then q.toInt / 16 else if -16 < q.toInt then 255 else 256 - (-q.toInt) / 16) ∧
      ((data.extractLsb' 2 2).toNat : Int) =
        Int.tdiv (q.toInt - 16 * ((data.extractLsb' 4 8).toNat : Int)) 4 % 4 ∧
      ((data.extractLsb' 2 2).toNat : Int) =
        (if 0 ≤ q.toInt then q.toInt % 16 / 4 else (4 - (-q.toInt) % 16 / 4) % 4) ∧
      data.extractLsb' 13 3 = 0#3 ∧ data.extractLsb' 0 2 = 0#2

/-- Rule R99: the closed form of the limit word. -/
def Obligations.EncLClosedForm : Prop :=
  ∀ (q : Word) (s : State), -2048 ≤ q.toInt → q.toInt ≤ 2032 →
    ∃ (data : Word) (warn : Bool), exec (.encL q) s = .next { s with rsp := some (.ok data warn) } ∧
      (0 ≤ q.toInt → data = q &&& 0x0FFC#16) ∧
      ∀ m a k i f : Nat, q.toInt = -(m : Int) → 0 < m → a = m / 16 → k = m % 16 / 4 →
        i = (if a = 0 then 0xFF else 256 - a) → f = (4 - k) % 4 →
          data = 0x1000#16 ||| BitVec.ofNat 16 i <<< 4 ||| BitVec.ofNat 16 f <<< 2

/-- Rule R100: `warn` exactly when the legal operand is below -40 or above 125 degrees; the word comes all the same. -/
def Obligations.EncLWarnsOutsideOperatingRange : Prop :=
  ∀ (q : Word) (s : State), -2048 ≤ q.toInt → q.toInt ≤ 2032 →
    ∃ data, exec (.encL q) s =
      .next { s with rsp := some (.ok data (decide (q.toInt < -640 ∨ 2000 < q.toInt))) }

/-- Rule R101: what `DEC_T` gives for the word `ENC_L` produced, row by row. -/
def Obligations.LimitRoundTripTable : Prop :=
  ∀ (q : Word) (s : State), -2048 ≤ q.toInt → q.toInt ≤ 2032 →
    ∃ (w : Word) (warn : Bool) (d : Word), exec (.encL q) s = .next { s with rsp := some (.ok w warn) } ∧
      exec (.decT w) s = .next { s with rsp := some (.ok d false) } ∧
      (0 ≤ q.toInt → d.toInt = q.toInt - q.toInt % 4) ∧
      ∀ m a k : Nat, q.toInt = -(m : Int) → a = m / 16 → k = m % 16 / 4 →
        (16 ≤ m → k = 0 → d.toInt = -(16 * (a : Int))) ∧
        (16 ≤ m → 1 ≤ k → d.toInt = -(16 * (a : Int)) + 16 - 4 * (k : Int)) ∧
        (4 ≤ m → m ≤ 15 → d.toInt = -(4 * (k : Int))) ∧
        (1 ≤ m → m ≤ 3 → d.toInt = -16)

/-- Rule R102: the round trip recovers the limit to within 0.25 degrees for exactly these legal operands. -/
def Obligations.LimitRoundTripWithinQuarterDegree : Prop :=
  ∀ (q : Word) (s : State), -2048 ≤ q.toInt → q.toInt ≤ 2032 →
    ∃ (w : Word) (warn : Bool) (d : Word), exec (.encL q) s = .next { s with rsp := some (.ok w warn) } ∧
      exec (.decT w) s = .next { s with rsp := some (.ok d false) } ∧
      ((-4 ≤ d.toInt - q.toInt ∧ d.toInt - q.toInt ≤ 4) ↔
        0 ≤ q.toInt ∨ (q.toInt ≤ -16 ∧ (-q.toInt) % 16 < 4) ∨ (-15 ≤ q.toInt ∧ q.toInt ≤ -4))

/-- Rule R80, for all commands that rule R23 gives no state: the response is a function of the operand alone and
the state is neither read nor written. -/
def Obligations.StateFreeCommandsArePure : Prop :=
  ∀ i : Instr, StateFree i → ∃ r, ∀ s : State, exec i s = .next { s with rsp := some r }

/-! ### Resolution codec -/

/-- Rules R111 and R113: a level byte passes through; a byte above 3 is a ValidationError. -/
def Obligations.ResolutionLevelsPassThrough : Prop :=
  ∀ (b : Byte) (s : State),
    (b.toNat ≤ 3 → exec (.decR b) s = .next { s with rsp := some (.ok (b.setWidth 16) false) } ∧
      exec (.encR b) s = .next { s with rsp := some (.ok (b.setWidth 16) false) }) ∧
    (3 < b.toNat → exec (.decR b) s = .next { s with rsp := some (.error .validationError) } ∧
      exec (.encR b) s = .next { s with rsp := some (.error .validationError) })

/-- Rule R115: `DEC_R` and `ENC_R` undo each other on the four levels. -/
def Obligations.ResolutionRoundTrip : Prop :=
  ∀ (b : Byte) (s : State), b.toNat ≤ 3 →
    (∃ c d, exec (.encR b) s = .next { s with rsp := some (.ok c false) } ∧
      exec (.decR (c.extractLsb' 0 8)) s = .next { s with rsp := some (.ok d false) } ∧ d.extractLsb' 0 8 = b) ∧
    (∃ c d, exec (.decR b) s = .next { s with rsp := some (.ok c false) } ∧
      exec (.encR (c.extractLsb' 0 8)) s = .next { s with rsp := some (.ok d false) } ∧ d.extractLsb' 0 8 = b)

/-! ### Configuration codec and cache -/

/-- Rule R12: the image of the cache, bit by bit; bits 15:11 and 5 are always 0; loading a word gives the image
`w & 0x07DF`; and record and image are in bijection (the record's hard-wired field being 0). -/
def Obligations.CacheImageIsCanonical : Prop :=
  (∀ c : Cfg, c.image.extractLsb' 9 2 = c.hyst ∧ c.image.getLsbD 8 = c.shdn ∧ c.image.getLsbD 7 = c.critLock ∧
    c.image.getLsbD 6 = c.winLock ∧ c.image.getLsbD 4 = c.alertStat ∧ c.image.getLsbD 3 = c.alertEn ∧
    c.image.getLsbD 2 = c.alertSel ∧ c.image.getLsbD 1 = c.alertPol ∧ c.image.getLsbD 0 = c.alertMode ∧
    c.image &&& 0xF820#16 = 0#16 ∧ (c.intClear = false → Cfg.ofWord c.image = c)) ∧
  (∀ w : Word, (Cfg.ofWord w).image = w &&& 0x07DF#16) ∧
  ∀ (w : Word) (s t : State), exec (.ldC w) s = .next t →
    t.cfg.image = w &&& 0x07DF#16 ∧ exec .rdC t = .next { t with rsp := some (.ok t.cfg.image false) }

/-- Rules R121 to R123: `DEC_C` answers `w & 0x07DF` and nothing else happens; bit 5 decodes to 0 and bits 15:11
do not matter. -/
def Obligations.DecCGivesFieldImage : Prop :=
  ∀ (w : Word) (s : State),
    exec (.decC w) s = .next { s with rsp := some (.ok (w &&& 0x07DF#16) false) } ∧
      exec (.decC (w &&& 0x07FF#16)) s = exec (.decC w) s ∧ exec (.decC (w ||| 0x0020#16)) s = exec (.decC w) s

/-- Rule R124: `LD_C` stores every field, sets `CFG_VALID`, keeps `int_clear` 0 and answers as `DEC_C`. -/
def Obligations.LdCLoadsEveryField : Prop :=
  ∀ (w : Word) (s : State), ∃ t, exec (.ldC w) s = .next t ∧ t.cfgValid = true ∧
    t.cfg.hyst = w.extractLsb' 9 2 ∧ t.cfg.shdn = w.getLsbD 8 ∧ t.cfg.critLock = w.getLsbD 7 ∧
    t.cfg.winLock = w.getLsbD 6 ∧ t.cfg.intClear = false ∧ t.cfg.alertStat = w.getLsbD 4 ∧
    t.cfg.alertEn = w.getLsbD 3 ∧ t.cfg.alertSel = w.getLsbD 2 ∧ t.cfg.alertPol = w.getLsbD 1 ∧
    t.cfg.alertMode = w.getLsbD 0 ∧ t.cfg.image = w &&& 0x07DF#16 ∧
    t.rsp = some (.ok (w &&& 0x07DF#16) false) ∧ t.pending = s.pending

/-- Rule R125: what `LD_C` leaves does not depend on what was there before, not even through a lock bit; and the
same load twice leaves the same state as once. -/
def Obligations.LdCDoesNotJudge : Prop :=
  ∀ (w : Word) (s u : State), ∃ t v, exec (.ldC w) s = .next t ∧ exec (.ldC w) u = .next v ∧
    t.cfgValid = v.cfgValid ∧ t.cfg = v.cfg ∧ t.rsp = v.rsp ∧
    (w.getLsbD 7 = false → t.cfg.critLock = false) ∧ exec (.ldC w) t = .next t

/-- Rules R127, R128 and R132: the word of `ENC_C`, each settable field from its override or the cache, `int_clear` from
its override or 0, the alert flag and bits 15:11 zero; nothing is written. -/
def Obligations.EncCEncodesOverridesOverCache : Prop :=
  ∀ (o : Overrides) (s : State), CanEncode o s →
    ∃ data : Word, exec (.encC o) s = .next { s with rsp := some (.ok data false) } ∧
      data.extractLsb' 9 2 = (match o.hyst with | some h => h.extractLsb' 0 2 | none => s.cfg.hyst) ∧
      data.getLsbD 8 = o.shdn.getD s.cfg.shdn ∧ data.getLsbD 7 = o.critLock.getD s.cfg.critLock ∧
      data.getLsbD 6 = o.winLock.getD s.cfg.winLock ∧ data.getLsbD 5 = o.intClear.getD false ∧
      data.getLsbD 4 = false ∧ data.getLsbD 3 = o.alertEn.getD s.cfg.alertEn ∧
      data.getLsbD 2 = o.alertSel.getD s.cfg.alertSel ∧ data.getLsbD 1 = o.alertPol.getD s.cfg.alertPol ∧
      data.getLsbD 0 = o.alertMode.getD s.cfg.alertMode ∧ data.extractLsb' 11 5 = 0#5

/-- Rules R129 and R131: an enabled hysteresis override above 3 is a ValidationError, loaded cache or not; with
legal overrides and no cache, a field left to the cache gives NoCache; in every other case there is a word. -/
def Obligations.EncCErrorsInOrder : Prop :=
  ∀ (o : Overrides) (s : State),
    (∀ h, o.hyst = some h → 3 < h.toNat → exec (.encC o) s = .next { s with rsp := some (.error .validationError) }) ∧
    (HystLegal o → s.cfgValid = false → ¬ AllCachedOverridden o →
      exec (.encC o) s = .next { s with rsp := some (.error .noCache) }) ∧
    (CanEncode o s → ∃ data, exec (.encC o) s = .next { s with rsp := some (.ok data false) })

/-- Rule R133: `ENC_C`, successful or not, leaves the cache as it was, and a second `ENC_C` answers what it would
have answered without the first. -/
def Obligations.EncCNeverWritesTheCache : Prop :=
  ∀ (o p : Overrides) (s : State), ∃ r q, exec (.encC o) s = .next { s with rsp := some r } ∧
    exec (.encC p) { s with rsp := some r } = .next { s with rsp := some q } ∧
    exec (.encC p) s = .next { s with rsp := some q }

/-- Rule R134: the round trips of the configuration codec, in both directions. -/
def Obligations.ConfigRoundTrip : Prop :=
  (∀ (h : Byte) (sh cl wl ic ae asel ap am : Bool) (s : State), h.toNat ≤ 3 →
    ∃ c d : Word,
      exec (.encC ⟨some h, some sh, some cl, some wl, some ic, some ae, some asel, some ap, some am⟩) s =
        .next { s with rsp := some (.ok c false) } ∧
      exec (.decC c) s = .next { s with rsp := some (.ok d false) } ∧
      (d.extractLsb' 9 2).setWidth 8 = h ∧ d.getLsbD 8 = sh ∧ d.getLsbD 7 = cl ∧ d.getLsbD 6 = wl ∧
      d.getLsbD 5 = false ∧ d.getLsbD 4 = false ∧ d.getLsbD 3 = ae ∧ d.getLsbD 2 = asel ∧ d.getLsbD 1 = ap ∧
      d.getLsbD 0 = am) ∧
  ∀ (w : Word) (s : State), ∃ t, exec (.ldC w) s = .next t ∧
    exec (.encC noOverrides) t = .next { t with rsp := some (.ok (w &&& 0x07CF#16) false) }

/-- Rules R128, R135: a hysteresis-only update keeps every other settable field's cached value. -/
def Obligations.HysteresisUpdateKeepsOtherFields : Prop :=
  ∀ (h : Byte) (s : State), h.toNat ≤ 3 → s.cfgValid = true →
    exec (.encC { noOverrides with hyst := some h }) s =
      .next { s with rsp := some (.ok ((s.cfg.image &&& 0x01CF#16) ||| (h.setWidth 16 <<< 9)) false) }

/-- Rules R23, R127: of the cache `ENC_C` reads only the fields it defaults. -/
def Obligations.EncCReadsOnlyDefaultedFields : Prop :=
  ∀ (o : Overrides) (s : State) (c : Cfg), SameDefaults o s.cfg c →
    ∃ r, exec (.encC o) s = .next { s with rsp := some r } ∧
      exec (.encC o) { s with cfg := c } = .next { s with cfg := c, rsp := some r }

/-- Rule R136: `RD_C` answers the image of a loaded cache, field by field, and NoCache before a load. -/
def Obligations.RdCReadsTheCache : Prop :=
  ∀ s : State,
    (s.cfgValid = true → ∃ data : Word, exec .rdC s = .next { s with rsp := some (.ok data false) } ∧
      data = s.cfg.image ∧ data.extractLsb' 9 2 = s.cfg.hyst ∧ data.getLsbD 8 = s.cfg.shdn ∧
      data.getLsbD 7 = s.cfg.critLock ∧ data.getLsbD 6 = s.cfg.winLock ∧ data.getLsbD 5 = false ∧
      data.getLsbD 4 = s.cfg.alertStat ∧ data.getLsbD 3 = s.cfg.alertEn ∧ data.getLsbD 2 = s.cfg.alertSel ∧
      data.getLsbD 1 = s.cfg.alertPol ∧ data.getLsbD 0 = s.cfg.alertMode ∧ data.extractLsb' 11 5 = 0#5) ∧
    (s.cfgValid = false → exec .rdC s = .next { s with rsp := some (.error .noCache) })

/-- Rule R137: the session's per-field operations are `APPLY_CFG` with the one override of the table's command
word. -/
def Obligations.PerFieldOperationsUseTheTabledWords : Prop :=
  (∀ (h : Session) (level : Byte), ∃ o, h.setHysteresis level = h.applyCfg o ∧
    encode (.encC o) = 0x700000001#36 ||| level.setWidth 36 <<< 16) ∧
  (∀ (h : Session) (on : Bool), ∃ o, h.setShutdown on = h.applyCfg o ∧
    encode (.encC o) = if on then 0x701000002#36 else 0x700000002#36) ∧
  (∀ (h : Session) (on : Bool), ∃ o, h.setCriticalLock on = h.applyCfg o ∧
    encode (.encC o) = if on then 0x702000004#36 else 0x700000004#36) ∧
  (∀ (h : Session) (on : Bool), ∃ o, h.setWindowLock on = h.applyCfg o ∧
    encode (.encC o) = if on then 0x704000008#36 else 0x700000008#36) ∧
  (∀ h : Session, ∃ o, h.clearInterrupt = h.applyCfg o ∧ encode (.encC o) = 0x708000010#36) ∧
  (∀ (h : Session) (on : Bool), ∃ o, h.setAlertEnable on = h.applyCfg o ∧
    encode (.encC o) = if on then 0x710000020#36 else 0x700000020#36) ∧
  (∀ (h : Session) (v : Bool), ∃ o, h.setAlertSelect v = h.applyCfg o ∧
    encode (.encC o) = if v then 0x720000040#36 else 0x700000040#36) ∧
  (∀ (h : Session) (v : Bool), ∃ o, h.setAlertPolarity v = h.applyCfg o ∧
    encode (.encC o) = if v then 0x740000080#36 else 0x700000080#36) ∧
  ∀ (h : Session) (v : Bool), ∃ o, h.setAlertMode v = h.applyCfg o ∧
    encode (.encC o) = if v then 0x780000100#36 else 0x700000100#36

/-! ### Errors, state and whole-machine rules -/

/-- Rule R150: which command raises which error, exactly. -/
def Obligations.ErrorsAreExactlyTheListed : Prop :=
  ∀ (i : Instr) (s : State), ∃ t r, exec i s = .next t ∧ t.rsp = some r ∧
    (r = .error .validationError ↔
      (∃ q : Word, i = .encL q ∧ (q.toInt < -2048 ∨ 2032 < q.toInt)) ∨
      (∃ b : Byte, (i = .decR b ∨ i = .encR b) ∧ 3 < b.toNat) ∨
      (∃ o h, i = .encC o ∧ o.hyst = some h ∧ 3 < h.toNat)) ∧
    (r = .error .noCache ↔
      s.cfgValid = false ∧ (i = .rdC ∨ ∃ o, i = .encC o ∧ HystLegal o ∧ ¬ AllCachedOverridden o)) ∧
    (r = .error .illegalOp ↔
      i ∈ [Instr.reserved9, .reservedA, .reservedB, .reservedC, .reservedD, .reservedE, .reservedF])

/-- Rule R154: a command that ends with an error changes no state, and its response carries no data and no
warning. -/
def Obligations.ErrorsChangeNothing : Prop :=
  ∀ (i : Instr) (s t : State) (e : ErrorStatus), exec i s = .next t → t.rsp = some (.error e) →
    t = { s with rsp := some (.error e) } ∧ (Response.error e).wire.extractLsb' 0 17 = 0#17

/-- Rule R70: the fields of the response word, the status codes, no other status, and `warn` from `ENC_L` only. -/
def Obligations.ResponseWordFormat : Prop :=
  (∀ (data : Word) (warn : Bool), (Response.ok data warn).wire.extractLsb' 17 3 = 0#3 ∧
    (Response.ok data warn).wire.getLsbD 16 = warn ∧ (Response.ok data warn).wire.extractLsb' 0 16 = data) ∧
  (Response.error .validationError).wire = 0x20000#20 ∧ (Response.error .noCache).wire = 0x40000#20 ∧
  (Response.error .illegalOp).wire = 0x60000#20 ∧
  (∀ r : Response, (r.wire.extractLsb' 17 3).toNat ≤ 3) ∧
  (∀ r q : Response, r.wire = q.wire → r = q) ∧
  ∀ (i : Instr) (s : State), ∃ t r, exec i s = .next t ∧ t.rsp = some r ∧
    (r.wire.getLsbD 16 = true → ∃ q, i = .encL q)

/-- Rules R42: the same command twice gives the same response twice and leaves the same state. -/
def Obligations.RepeatedCommandIsIdempotent : Prop :=
  ∀ (i : Instr) (s : State), ∃ t, exec i s = .next t ∧ exec i t = .next t

/-- Rule R11: `CFG_VALID` is 0 after reset, set by every `LD_C`, cleared by nothing but the reset input; while it
is 0 no command reads the contents of the cache, `RD_C` and a defaulting `ENC_C` answering NoCache. -/
def Obligations.CfgValidRecordsALoad : Prop :=
  State.reset.cfgValid = false ∧
  (∀ (w : Word) (s : State), ∃ t, exec (.ldC w) s = .next t ∧ t.cfgValid = true) ∧
  (∀ (s t : State), s.cfgValid = true → step s = .next t → t.cfgValid = false →
    ∃ rest, s.pending = .resetInput :: rest) ∧
  ∀ (i : Instr) (s : State) (c : Cfg), s.cfgValid = false →
    (∃ t u, exec i s = .next t ∧ exec i { s with cfg := c } = .next u ∧ t.rsp = u.rsp) ∧
    exec .rdC s = .next { s with rsp := some (.error .noCache) } ∧
    ∀ o, HystLegal o → ¬ AllCachedOverridden o → exec (.encC o) s = .next { s with rsp := some (.error .noCache) }

/-- Rules R23, R24: a step changes the cache only by running an `LD_C`, after which it holds the loaded word's
fields, or by taking the reset input, after which it is invalid. -/
def Obligations.OnlyLoadAndResetChangeTheCache : Prop :=
  ∀ s : State, ∃ t, step s = .next t ∧
    ((t.cfg = s.cfg ∧ t.cfgValid = s.cfgValid) ∨
      (∃ c w rest, s.pending = .command c :: rest ∧ decode c = .ldC w ∧ CacheHolds t w) ∨
      (∃ rest, s.pending = .resetInput :: rest ∧ t.cfgValid = false))

/-- The invariant holds after reset (rules R17, R180). -/
def Obligations.InvariantHoldsAtReset : Prop := Inv State.reset

/-- Rules R17, R52, R70, R160: every step keeps the invariant, from any state that has it: the hard-wired field
stays 0, and every response word is one the spec allows. -/
def Obligations.EveryStepKeepsTheInvariant : Prop :=
  ∀ s : State, Inv s → ∃ t, step s = .next t ∧ Inv t

/-- Rules R11, R180: the unspecified contents of `CFG` after reset, to which the model gives a value of its own
(log entry 1), can never be observed: over any number of steps, two runs that differ only in the contents of an
invalid cache agree in everything observable, their responses included. -/
def Obligations.UnspecifiedCacheIsUnobservable : Prop :=
  ∀ (k : Nat) (s t : State), SameObservable s t →
    ∃ u v, core.run k s = .next u ∧ core.run k t = .next v ∧ SameObservable u v

/-- Rule R12 with the closed forms of rules R85, R99, R121, R124, R127: on every command word and from every state,
the field-by-field block answers the same response word and reaches the same image as the image-and-mask reading
of the spec. -/
def Obligations.RecordModelRefinesImageModel : Prop :=
  ∀ (c : Command) (s : State), ∃ t r, step (s.present (.command c)) = .next t ∧ t.rsp = some r ∧
    r.wire = wireResponse c s.wireState ∧ t.wireState = wireNext c s.wireState ∧ t.pending = s.pending

/-- Rule R186: without a reload in between, a second encode re-emits the old hysteresis, undoing the first. -/
def Obligations.StaleCacheUndoesAnUpdate : Prop :=
  ∀ (h : Byte) (b : Bool) (s : State), h.toNat ≤ 3 → s.cfgValid = true →
    ∃ (t u : State) (d e : Word), exec (.encC { noOverrides with hyst := some h }) s = .next t ∧
      t.rsp = some (.ok d false) ∧ exec (.encC { noOverrides with shdn := some b }) t = .next u ∧
      u.rsp = some (.ok e false) ∧ (d.extractLsb' 9 2).setWidth 8 = h ∧ e.extractLsb' 9 2 = s.cfg.hyst ∧
      e.getLsbD 8 = b

/-! ### The host contract -/

/-- Rules R156, R166 to R168, R194: when the block answers an error the operation stops there: no transfer is made
and the cache is as before. -/
def Obligations.FailedEncodeWritesNothing : Prop :=
  (∀ (h : Session) (which : LimitKind) (t : Word), t.toInt < -2048 ∨ 2032 < t.toInt →
    ∃ g, h.setLimit which t = .failed (.blockError .validationError) g ∧ g.transfers = h.transfers ∧
      g.diagnostics = h.diagnostics ∧ g.block.cfg = h.block.cfg ∧ g.block.cfgValid = h.block.cfgValid) ∧
  (∀ (h : Session) (level : Byte), 3 < level.toNat →
    ∃ g, h.setRes level = .failed (.blockError .validationError) g ∧ g.transfers = h.transfers ∧
      g.diagnostics = h.diagnostics ∧ g.block.cfg = h.block.cfg ∧ g.block.cfgValid = h.block.cfgValid) ∧
  ∀ (h : Session) (o : Overrides), ¬ CanEncode o h.block →
    ∃ e g, h.applyCfg o = .failed (.blockError e) g ∧ g.transfers = h.transfers ∧
      g.diagnostics = h.diagnostics ∧ g.block.cfg = h.block.cfg ∧ g.block.cfgValid = h.block.cfgValid

/-- Rule R170: `INIT`, its identity check, its diagnostic and the seeding of the cache, in this order of reads. -/
def Obligations.InitChecksIdentityThenSeedsTheCache : Prop :=
  (∀ (h : Session) (m0 m1 : Byte) (rest : List BusReply), h.replies = .bytes [m0, m1] :: rest →
    ¬ (m0 = 0x00#8 ∧ m1 = 0x54#8) →
      ∃ g, h.init = .failed .identityError g ∧ g.block = h.block ∧ g.diagnostics = h.diagnostics ∧
        g.transfers = h.transfers ++ [.read Config.deviceAddress 0x06#8 2]) ∧
  (∀ (h : Session) (d0 d1 : Byte) (rest : List BusReply),
    h.replies = .bytes [0x00#8, 0x54#8] :: .bytes [d0, d1] :: rest → d0 ≠ 0x04#8 →
      ∃ g, h.init = .failed .identityError g ∧ g.block = h.block ∧ g.diagnostics = h.diagnostics ∧
        g.transfers = h.transfers ++
          [.read Config.deviceAddress 0x06#8 2, .read Config.deviceAddress 0x07#8 2]) ∧
  ∀ (h : Session) (d1 c0 c1 : Byte) (rest : List BusReply),
    h.replies = .bytes [0x00#8, 0x54#8] :: .bytes [0x04#8, d1] :: .bytes [c0, c1] :: rest →
      ∃ g, h.init = .done (Cfg.ofWord (c0 ++ c1)) g ∧ CacheHolds g.block (c0 ++ c1) ∧ g.replies = rest ∧
        g.transfers = h.transfers ++ [.read Config.deviceAddress 0x06#8 2,
          .read Config.deviceAddress 0x07#8 2, .read Config.deviceAddress 0x01#8 2] ∧
        g.diagnostics = h.diagnostics ++
          (if d1 = Config.expectedRevision then [] else [.revisionMismatch])

/-- Rule R166: `APPLY_CFG` encodes against the cache, writes the word, re-reads the register into the cache, and
reports a Divergence, not an error, when a reloaded field other than `int_clear` differs from the request. -/
def Obligations.ApplyCfgReloadsFromTheRegister : Prop :=
  ∀ (h : Session) (o : Overrides) (c0 c1 : Byte) (rest : List BusReply), CanEncode o h.block →
    h.replies = .written :: .bytes [c0, c1] :: rest →
      ∃ (data : Word) (g : Session),
        exec (.encC o) h.block = .next { h.block with rsp := some (.ok data false) } ∧
        h.applyCfg o = .done (Cfg.ofWord (c0 ++ c1)) g ∧ CacheHolds g.block (c0 ++ c1) ∧
        g.replies = rest ∧ g.block.pending = h.block.pending ∧
        g.transfers = h.transfers ++
          [.write Config.deviceAddress 0x01#8 [data.extractLsb' 8 8, data.extractLsb' 0 8],
            .read Config.deviceAddress 0x01#8 2] ∧
        g.diagnostics = h.diagnostics ++
          (if (∀ v, o.hyst = some v → v = ((c0 ++ c1).extractLsb' 9 2).setWidth 8) ∧
              (∀ v, o.shdn = some v → v = (c0 ++ c1).getLsbD 8) ∧
              (∀ v, o.critLock = some v → v = (c0 ++ c1).getLsbD 7) ∧
              (∀ v, o.winLock = some v → v = (c0 ++ c1).getLsbD 6) ∧
              (∀ v, o.alertEn = some v → v = (c0 ++ c1).getLsbD 3) ∧
              (∀ v, o.alertSel = some v → v = (c0 ++ c1).getLsbD 2) ∧
              (∀ v, o.alertPol = some v → v = (c0 ++ c1).getLsbD 1) ∧
              (∀ v, o.alertMode = some v → v = (c0 ++ c1).getLsbD 0)
            then [] else [.configDivergence])

/-- Rules R38, R166, R189: with the critical lock set in the sensor and its latch holding, an unlock succeeds at
the protocol level, still shows locked, and is reported as a Divergence. -/
def Obligations.RefusedUnlockIsADivergence : Prop :=
  ∀ (h : Session) (before : Word) (c0 c1 : Byte) (rest : List BusReply), CacheHolds h.block before →
    before.getLsbD 7 = true → LocksHold before (c0 ++ c1) → h.replies = .written :: .bytes [c0, c1] :: rest →
      ∃ cfg g, h.setCriticalLock false = .done cfg g ∧ cfg.critLock = true ∧ g.block.cfg.critLock = true ∧
        g.diagnostics = h.diagnostics ++ [.configDivergence]

/-- Rule R167: `SET_LIMIT` writes the encoded bytes to the limit's register, reads them back, and reports an
unreachable limit and a differing read-back as diagnostics. -/
def Obligations.SetLimitWritesAndReadsBack : Prop :=
  ∀ (h : Session) (which : LimitKind) (t : Word) (r0 r1 : Byte) (rest : List BusReply),
    -2048 ≤ t.toInt → t.toInt ≤ 2032 → h.replies = .written :: .bytes [r0, r1] :: rest →
      ∃ (data : Word) (warn : Bool) (g : Session),
        exec (.encL t) h.block = .next { h.block with rsp := some (.ok data warn) } ∧
        h.setLimit which t = .done () g ∧ g.replies = rest ∧
        g.block = { h.block with rsp := some (.ok data warn) } ∧
        g.transfers = h.transfers ++
          [.write Config.deviceAddress
              (match which with | .upper => 0x02#8 | .lower => 0x03#8 | .critical => 0x04#8)
              [data.extractLsb' 8 8, data.extractLsb' 0 8],
            .read Config.deviceAddress
              (match which with | .upper => 0x02#8 | .lower => 0x03#8 | .critical => 0x04#8) 2] ∧
        g.diagnostics = h.diagnostics ++ (if warn then [.limitUnreachable which] else []) ++
          (if r0 ++ r1 = data then [] else [.limitDivergence which])

/-- Rules R38, R167: with the limit's lock set in the sensor and the lock holding, a `SET_LIMIT` to a word other than
the old one succeeds and is reported as a Divergence. Which limits the window lock covers is the inference rule R38
marks as derived (log entry 13). -/
def Obligations.RefusedLimitWriteIsADivergence : Prop :=
  ∀ (h : Session) (which : LimitKind) (t config old : Word) (r0 r1 : Byte) (rest : List BusReply),
    -2048 ≤ t.toInt → t.toInt ≤ 2032 → lockBit which config = true →
      LockedLimitHolds which config old (r0 ++ r1) → h.replies = .written :: .bytes [r0, r1] :: rest →
        ∃ (data : Word) (warn : Bool), exec (.encL t) h.block = .next { h.block with rsp := some (.ok data warn) } ∧
          (data ≠ old → ∃ g, h.setLimit which t = .done () g ∧
            g.diagnostics = h.diagnostics ++ (if warn then [.limitUnreachable which] else []) ++
              [.limitDivergence which])

/-- Rule R168: `SET_RES` writes one byte to register 0x08 and reads it back; a mismatch is a Divergence. -/
def Obligations.SetResWritesAndReadsBack : Prop :=
  ∀ (h : Session) (level r : Byte) (rest : List BusReply), level.toNat ≤ 3 →
    h.replies = .written :: .bytes [r] :: rest →
      ∃ g, h.setRes level = .done () g ∧ g.replies = rest ∧ g.block.cfg = h.block.cfg ∧
        g.block.cfgValid = h.block.cfgValid ∧
        g.transfers = h.transfers ++
          [.write Config.deviceAddress 0x08#8 [level], .read Config.deviceAddress 0x08#8 1] ∧
        g.diagnostics = h.diagnostics ++ (if r = level then [] else [.resolutionDivergence])

/-- Rule R169: `READ_TEMP` and `READ_FLAGS` each read register 0x05 once and decode the word read. -/
def Obligations.ReadTempAndFlagsDecodeOneReadEach : Prop :=
  ∀ (h : Session) (b0 b1 : Byte) (rest : List BusReply), h.replies = .bytes [b0, b1] :: rest →
    (∃ g, h.readTemp = .done (((b0 ++ b1).extractLsb' 0 13).signExtend 16) g ∧ g.replies = rest ∧
      g.transfers = h.transfers ++ [.read Config.deviceAddress 0x05#8 2] ∧ g.block.cfg = h.block.cfg ∧
      g.block.cfgValid = h.block.cfgValid ∧ g.diagnostics = h.diagnostics) ∧
    (∃ g, h.readFlags = .done (b0.getLsbD 7, b0.getLsbD 6, b0.getLsbD 5) g ∧ g.replies = rest ∧
      g.transfers = h.transfers ++ [.read Config.deviceAddress 0x05#8 2] ∧ g.block.cfg = h.block.cfg ∧
      g.block.cfgValid = h.block.cfgValid ∧ g.diagnostics = h.diagnostics)

/-- Rule R162: a failed bus operation is propagated, not retried, and leaves the block's cache as it was. The clause
`g.replies = rest` also says that the host makes no reload after the failure: rule R162 and N15 leave that unstated,
and it is the model's choice (log entry 14). -/
def Obligations.TransportErrorIsPropagated : Prop :=
  ∀ (h : Session) (o : Overrides) (rest : List BusReply), CanEncode o h.block →
    (h.replies = .transportError :: rest →
      ∃ g, h.applyCfg o = .failed .transportError g ∧ g.replies = rest ∧ g.block.cfg = h.block.cfg ∧
        g.block.cfgValid = h.block.cfgValid) ∧
    (h.replies = .written :: .transportError :: rest →
      ∃ g, h.applyCfg o = .failed .transportError g ∧ g.replies = rest ∧ g.block.cfg = h.block.cfg ∧
        g.block.cfgValid = h.block.cfgValid)

/-- Rules R32, R34, R36: whatever the bus replies, no operation of the session ever addresses an offset outside the
map, moves part of a register, or writes a register the host does not write. -/
def Obligations.SessionTransfersStayInTheMap : Prop :=
  ∀ h : Session, TransfersLegal h →
    TransfersLegal h.init.session ∧ (∀ o, TransfersLegal (h.applyCfg o).session) ∧
    (∀ which t, TransfersLegal (h.setLimit which t).session) ∧ TransfersLegal h.readTemp.session ∧
    TransfersLegal h.readFlags.session ∧ (∀ level, TransfersLegal (h.setRes level).session)
end

