-- ==== Sys2Proof/Laws/Bits.lean ====
section
/-! SUPPORT. The bits of the bit-field helpers, said once, so that no later proof unfolds them. -/

namespace Sys2Proof

@[simp] theorem getLsbD_bitAt (k i j : Nat) (b : Bool) :
    (bitAt k i b).getLsbD j = (decide (j < k) && decide (j = i) && b) := by
  rcases Nat.lt_trichotomy j i with h | rfl | h
  · simp [bitAt, h, Nat.ne_of_lt h]
  · cases b <;> simp [bitAt]
    omega
  · have : j - i ≠ 0 := by omega
    simp [bitAt, Nat.not_lt_of_lt h, (Nat.ne_of_lt h).symm, BitVec.getLsbD_ofBool, this]

@[simp] theorem getElem_bitAt (k i j : Nat) (b : Bool) (h : j < k) :
    (bitAt k i b)[j] = (decide (j = i) && b) := by
  rw [← BitVec.getLsbD_eq_getElem, getLsbD_bitAt]
  simp [h]

@[simp] theorem getLsbD_concat (k : Nat) {n m : Nat} (x : BitVec n) (y : BitVec m) (j : Nat) :
    (concat k x y).getLsbD j = (decide (j < k) && if j < m then y.getLsbD j else x.getLsbD (j - m)) := by
  by_cases hk : j < k
  · by_cases hm : j < m
    · simp [concat, hk, hm]
    · simp [concat, hk, hm, BitVec.getLsbD_of_ge y j (by omega)]
  · simp [concat, hk]

@[simp] theorem getElem_concat (k : Nat) {n m : Nat} (x : BitVec n) (y : BitVec m) (j : Nat) (h : j < k) :
    (concat k x y)[j] = if j < m then y.getLsbD j else x.getLsbD (j - m) := by
  rw [← BitVec.getLsbD_eq_getElem, getLsbD_concat]
  simp [h]

/-- Where the widths add up, `concat` is Lean's own append. -/
theorem concat_eq_append {n m : Nat} (x : BitVec n) (y : BitVec m) : concat (n + m) x y = x ++ y := by
  apply BitVec.eq_of_getLsbD_eq
  intro i hi
  rw [BitVec.getLsbD_append]
  by_cases h : i < m <;> simp [hi, h]

/-- The command word's operation code and operand, bit by bit (rule R65). -/
theorem getLsbD_commandWord (op : BitVec 4) (arg : BitVec 32) (i : Nat) :
    (commandWord op arg).getLsbD i = (decide (i < 36) && if i < 32 then arg.getLsbD i else op.getLsbD (i - 32)) :=
  getLsbD_concat 36 op arg i

end Sys2Proof
end

