-- ==== Sys2Proof/Laws/Decode.lean ====
section
/-! SUPPORT. The decoder by the number in the operation-code field, as rule R73's table lists it, and what the
encoder's operand gives back to the decoder. -/

namespace Sys2Proof

/-- The operation code as a number, from its four bits (rule R65). -/
theorem opField_toNat (c : Command) :
    (c.extractLsb' 32 4).toNat = 8 * (c.getLsbD 35).toNat + 4 * (c.getLsbD 34).toNat +
      2 * (c.getLsbD 33).toNat + (c.getLsbD 32).toNat := by
  have bits : ∀ v : BitVec 4, v.toNat = 8 * (v.getLsbD 3).toNat + 4 * (v.getLsbD 2).toNat +
      2 * (v.getLsbD 1).toNat + (v.getLsbD 0).toNat := by decide
  rw [bits (c.extractLsb' 32 4)]
  simp

/-- The command map (rules R73, R74), by the number of the operation code. -/
theorem decode_by_code (c : Command) :
    decode c = match (c.extractLsb' 32 4).toNat with
      | 0 => .decT (layoutW (argField c))
      | 1 => .decF (layoutW (argField c))
      | 2 => .encL (layoutQ (argField c))
      | 3 => .decR (layoutB (argField c))
      | 4 => .encR (layoutB (argField c))
      | 5 => .decC (layoutW (argField c))
      | 6 => .ldC (layoutW (argField c))
      | 7 => .encC (layoutO (argField c))
      | 8 => .rdC
      | 9 => .reserved9
      | 10 => .reservedA
      | 11 => .reservedB
      | 12 => .reservedC
      | 13 => .reservedD
      | 14 => .reservedE
      | _ => .reservedF := by
  rw [opField_toNat]
  unfold decode
  cases c.getLsbD 35 <;> cases c.getLsbD 34 <;> cases c.getLsbD 33 <;> cases c.getLsbD 32 <;> rfl

/-- The operand of a command word is what was put there. -/
@[simp] theorem argField_commandWord (op : BitVec 4) (arg : BitVec 32) : argField (commandWord op arg) = arg := by
  apply BitVec.eq_of_getLsbD_eq
  intro i hi
  simp [argField, commandWord, hi]
  omega

/-- The operation code of a command word is what was put there. -/
@[simp] theorem opField_commandWord (op : BitVec 4) (arg : BitVec 32) :
    (commandWord op arg).extractLsb' 32 4 = op := by
  apply BitVec.eq_of_getLsbD_eq
  intro i hi
  simp [commandWord, hi]
  omega

end Sys2Proof
end

