-- ==== Sys2Proof/Laws/State.lean ====
section
/-! SUPPORT. One lemma per field per update of State, so that no later proof unfolds a record update. -/

namespace Sys2Proof.Machine

variable (s : State) (r : Response) (c : Cfg) (e : PortEvent)

@[simp] theorem State.respond_cfgValid : (s.respond r).cfgValid = s.cfgValid := rfl
@[simp] theorem State.respond_cfg : (s.respond r).cfg = s.cfg := rfl
@[simp] theorem State.respond_pending : (s.respond r).pending = s.pending := rfl
@[simp] theorem State.respond_rsp : (s.respond r).rsp = some r := rfl

@[simp] theorem State.loadCache_cfgValid : (s.loadCache c).cfgValid = true := rfl
@[simp] theorem State.loadCache_cfg : (s.loadCache c).cfg = c := rfl
@[simp] theorem State.loadCache_pending : (s.loadCache c).pending = s.pending := rfl
@[simp] theorem State.loadCache_rsp : (s.loadCache c).rsp = s.rsp := rfl

@[simp] theorem State.present_cfgValid : (s.present e).cfgValid = s.cfgValid := rfl
@[simp] theorem State.present_cfg : (s.present e).cfg = s.cfg := rfl
@[simp] theorem State.present_pending : (s.present e).pending = e :: s.pending := rfl
@[simp] theorem State.present_rsp : (s.present e).rsp = s.rsp := rfl

@[simp] theorem State.idle_cfgValid : s.idle.cfgValid = s.cfgValid := rfl
@[simp] theorem State.idle_cfg : s.idle.cfg = s.cfg := rfl
@[simp] theorem State.idle_pending : s.idle.pending = s.pending := rfl
@[simp] theorem State.idle_rsp : s.idle.rsp = none := rfl

@[simp] theorem State.takeReset_cfgValid : s.takeReset.cfgValid = false := rfl
@[simp] theorem State.takeReset_cfg : s.takeReset.cfg = Cfg.reset := rfl
@[simp] theorem State.takeReset_pending : s.takeReset.pending = s.pending := rfl
@[simp] theorem State.takeReset_rsp : s.takeReset.rsp = none := rfl

@[simp] theorem Cfg.reset_intClear : Cfg.reset.intClear = false := rfl
@[simp] theorem Cfg.ofWord_intClear (w : Word) : (Cfg.ofWord w).intClear = false := rfl
@[simp] theorem Cfg.readIntClear_eq : c.readIntClear = false := rfl

/-- A state read twice at the response port keeps the later response. -/
@[simp] theorem State.respond_respond (q : Response) : (s.respond r).respond q = s.respond q := rfl

end Sys2Proof.Machine
end

