-- ==== Sys2Proof/Laws/Ops.lean ====
section
/-! SUPPORT. For each shared operation, once, everything it can do. -/

namespace Sys2Proof.Machine

/-! ### Ending a command -/

/-- `finish` always completes, and its next state is the state with the response. -/
theorem finish_next_iff (d : Word) (w : Bool) (s t : State) :
    finish d w s = .next t ↔ t = s.respond (.ok d w) := by
  simp [finish, eq_comm]

/-- `raise` always completes, and its next state is the state with the error. -/
theorem raise_next_iff (e : ErrorStatus) (s t : State) :
    raise e s = .next t ↔ t = s.respond (.error e) := by
  simp [raise, eq_comm]

/-! ### The ports -/

theorem State.accept_nil {s : State} (h : s.pending = []) : s.accept = none := by
  simp [State.accept, h]

theorem State.accept_cons {s : State} {e : PortEvent} {rest : List PortEvent} (h : s.pending = e :: rest) :
    s.accept = some (e, { s with pending := rest }) := by
  simp [State.accept, h]

@[simp] theorem State.accept_present (s : State) (e : PortEvent) : (s.present e).accept = some (e, s) := rfl

/-! ### Levels -/

theorem isLevel_iff (b : Byte) : isLevel b = true ↔ b.toNat ≤ 3 := by simp [isLevel]

/-- `passLevel` gives the byte exactly for a level. -/
theorem passLevel_of_level {b : Byte} (h : b.toNat ≤ 3) (s : State) :
    passLevel b s = .next (s.respond (.ok (b.setWidth 16) false)) := by
  simp [passLevel, (isLevel_iff b).2 h, finish]

theorem passLevel_of_not_level {b : Byte} (h : 3 < b.toNat) (s : State) :
    passLevel b s = .next (s.respond (.error .validationError)) := by
  have : isLevel b = false := by simp [isLevel]; omega
  simp [passLevel, this, raise]

/-! ### Limits -/

theorem limitLegal_iff (n : Int) : limitLegal n = true ↔ -2048 ≤ n ∧ n ≤ 2032 := by simp [limitLegal]

theorem execEncL_of_legal {q : Word} (h : -2048 ≤ q.toInt ∧ q.toInt ≤ 2032) (s : State) :
    execEncL q s = .next (s.respond (.ok (limitWord q.toInt) (wRange q.toInt))) := by
  simp [execEncL, sixteenths, (limitLegal_iff _).2 h, finish]

theorem execEncL_of_illegal {q : Word} (h : ¬(-2048 ≤ q.toInt ∧ q.toInt ≤ 2032)) (s : State) :
    execEncL q s = .next (s.respond (.error .validationError)) := by
  have : limitLegal q.toInt = false := by simpa using mt (limitLegal_iff _).1 h
  simp [execEncL, sixteenths, this, raise]

/-! ### The configuration word -/

section
variable (h : BitVec 2) (b8 b7 b6 b5 b4 b3 b2 b1 b0 : Bool)

/-- Every bit of a packed configuration word. -/
theorem packConfig_getLsbD (i : Nat) :
    (packConfig h b8 b7 b6 b5 b4 b3 b2 b1 b0).getLsbD i =
      match i with
      | 0 => b0 | 1 => b1 | 2 => b2 | 3 => b3 | 4 => b4 | 5 => b5 | 6 => b6 | 7 => b7 | 8 => b8
      | 9 => h.getLsbD 0 | 10 => h.getLsbD 1
      | _ => false := by
  rcases Nat.lt_or_ge i 11 with hi | hi
  · interval_cases i <;> simp [packConfig]
  · obtain ⟨j, rfl⟩ := Nat.exists_eq_add_of_le' hi
    simp [packConfig]

end

/-- The override in a hysteresis field is legal exactly when `hystIllegal` is false. -/
theorem hystIllegal_eq_false (o : Overrides) :
    hystIllegal o = false ↔ ∀ h, o.hyst = some h → h.toNat ≤ 3 := by
  unfold hystIllegal
  split <;> simp_all [isLevel]

/-- The mask test of rule R131, field by field. -/
theorem needsCache_eq_false (o : Overrides) :
    needsCache o = false ↔ o.hyst.isSome ∧ o.shdn.isSome ∧ o.critLock.isSome ∧ o.winLock.isSome ∧
      o.alertEn.isSome ∧ o.alertSel.isSome ∧ o.alertPol.isSome ∧ o.alertMode.isSome := by
  simp only [needsCache, bne_eq_false_iff_eq]
  constructor
  · intro h
    have e : ∀ i, (o.en &&& 0x1EF#9).getLsbD i = (0x1EF#9).getLsbD i := fun i => by rw [h]
    exact ⟨by simpa [Overrides.en] using e 0, by simpa [Overrides.en] using e 1,
      by simpa [Overrides.en] using e 2, by simpa [Overrides.en] using e 3,
      by simpa [Overrides.en] using e 5, by simpa [Overrides.en] using e 6,
      by simpa [Overrides.en] using e 7, by simpa [Overrides.en] using e 8⟩
  · rintro ⟨h0, h1, h2, h3, h5, h6, h7, h8⟩
    simp only [Overrides.en, h0, h1, h2, h3, h5, h6, h7, h8]
    cases o.intClear.isSome <;> decide

/-- `ENC_C` answers a word, ValidationError or NoCache, and touches nothing but the response port. -/
theorem execEncC_cases (o : Overrides) (s : State) :
    (hystIllegal o = true ∧ execEncC o s = .next (s.respond (.error .validationError))) ∨
    (hystIllegal o = false ∧ s.cfgValid = false ∧ needsCache o = true ∧
      execEncC o s = .next (s.respond (.error .noCache))) ∨
    (hystIllegal o = false ∧ (s.cfgValid = true ∨ needsCache o = false) ∧
      execEncC o s = .next (s.respond (.ok (encodeConfig o s.cfg) false))) := by
  unfold execEncC finish raise
  cases hystIllegal o <;> cases s.cfgValid <;> cases needsCache o <;> simp

/-- `RD_C` by the valid bit. -/
theorem execRdC_cases (s : State) :
    (s.cfgValid = true ∧ execRdC s = .next (s.respond (.ok s.cfg.image false))) ∨
    (s.cfgValid = false ∧ execRdC s = .next (s.respond (.error .noCache))) := by
  unfold execRdC finish raise
  cases s.cfgValid <;> simp

end Sys2Proof.Machine
end

