-- ==== Sys2Proof/Laws/PerInstr.lean ====
section
/-! SUPPORT. The family `OpField`: the encoder writes the operation code of the command map into bits 35:32, one
lemma per constructor (rules R65, R73, R74). -/

namespace Sys2Proof.Laws.OpField

/-- The code of the command map (rule R73), as a number. -/
def code : Instr → Nat
  | .decT _    => 0
  | .decF _    => 1
  | .encL _    => 2
  | .decR _    => 3
  | .encR _    => 4
  | .decC _    => 5
  | .ldC _     => 6
  | .encC _    => 7
  | .rdC       => 8
  | .reserved9 => 9
  | .reservedA => 10
  | .reservedB => 11
  | .reservedC => 12
  | .reservedD => 13
  | .reservedE => 14
  | .reservedF => 15

/-- The encoder writes the instruction's code into `cmd[35:32]`. -/
def Statement (i : Instr) : Prop := ((encode i).extractLsb' 32 4).toNat = code i

theorem decT (w : Word) : Statement (.decT w) := by simp [Statement, encode, code]
theorem decF (w : Word) : Statement (.decF w) := by simp [Statement, encode, code]
theorem encL (q : Word) : Statement (.encL q) := by simp [Statement, encode, code]
theorem decR (b : Byte) : Statement (.decR b) := by simp [Statement, encode, code]
theorem encR (b : Byte) : Statement (.encR b) := by simp [Statement, encode, code]
theorem decC (w : Word) : Statement (.decC w) := by simp [Statement, encode, code]
theorem ldC (w : Word) : Statement (.ldC w) := by simp [Statement, encode, code]
theorem encC (o : Overrides) : Statement (.encC o) := by simp [Statement, encode, code]
theorem rdC : Statement .rdC := by simp [Statement, encode, code]
theorem reserved9 : Statement .reserved9 := by simp [Statement, encode, code]
theorem reservedA : Statement .reservedA := by simp [Statement, encode, code]
theorem reservedB : Statement .reservedB := by simp [Statement, encode, code]
theorem reservedC : Statement .reservedC := by simp [Statement, encode, code]
theorem reservedD : Statement .reservedD := by simp [Statement, encode, code]
theorem reservedE : Statement .reservedE := by simp [Statement, encode, code]
theorem reservedF : Statement .reservedF := by simp [Statement, encode, code]

end Sys2Proof.Laws.OpField
end

