-- ==== Sys2Proof/Laws/Step.lean ====
section
/-! SUPPORT. What an instruction and a step can do, said once: the frame of every command. -/

namespace Sys2Proof.Machine

/-- Every instruction completes; all but `LD_C` change only the response port, and `LD_C` loads the cache. -/
theorem exec_cases (i : Instr) (s : State) :
    (∃ r, exec i s = .next (s.respond r)) ∨
    (∃ w, i = .ldC w ∧
      exec i s = .next ((s.loadCache (Cfg.ofWord w)).respond (.ok (Cfg.ofWord w).image false))) := by
  cases i with
  | decT w => exact .inl ⟨_, rfl⟩
  | decF w => exact .inl ⟨_, rfl⟩
  | encL q =>
    by_cases h : -2048 ≤ q.toInt ∧ q.toInt ≤ 2032
    · exact .inl ⟨_, execEncL_of_legal h s⟩
    · exact .inl ⟨_, execEncL_of_illegal h s⟩
  | decR b =>
    rcases Nat.lt_or_ge 3 b.toNat with h | h
    · exact .inl ⟨_, passLevel_of_not_level h s⟩
    · exact .inl ⟨_, passLevel_of_level h s⟩
  | encR b =>
    rcases Nat.lt_or_ge 3 b.toNat with h | h
    · exact .inl ⟨_, passLevel_of_not_level h s⟩
    · exact .inl ⟨_, passLevel_of_level h s⟩
  | decC w => exact .inl ⟨_, rfl⟩
  | ldC w => exact .inr ⟨w, rfl, rfl⟩
  | encC o => rcases execEncC_cases o s with ⟨-, h⟩ | ⟨-, -, -, h⟩ | ⟨-, -, h⟩ <;> exact .inl ⟨_, h⟩
  | rdC => rcases execRdC_cases s with ⟨-, h⟩ | ⟨-, h⟩ <;> exact .inl ⟨_, h⟩
  | reserved9 => exact .inl ⟨_, rfl⟩
  | reservedA => exact .inl ⟨_, rfl⟩
  | reservedB => exact .inl ⟨_, rfl⟩
  | reservedC => exact .inl ⟨_, rfl⟩
  | reservedD => exact .inl ⟨_, rfl⟩
  | reservedE => exact .inl ⟨_, rfl⟩
  | reservedF => exact .inl ⟨_, rfl⟩

theorem step_nil {s : State} (h : s.pending = []) : step s = .next s.idle := by
  simp [step, State.accept_nil h]

theorem step_reset {s : State} {rest : List PortEvent} (h : s.pending = .resetInput :: rest) :
    step s = .next (State.takeReset { s with pending := rest }) := by
  simp [step, State.accept_cons h]

theorem step_command {s : State} {c : Command} {rest : List PortEvent} (h : s.pending = .command c :: rest) :
    step s = exec (decode c) { s with pending := rest } := by
  simp [step, State.accept_cons h]

@[simp] theorem step_present (s : State) (c : Command) :
    step (s.present (.command c)) = exec (decode c) s := rfl

end Sys2Proof.Machine
end

