-- ==== Sys2Proof/Laws/Session.lean ====
section
/-! SUPPORT. What the session's primitives do, said once. -/

namespace Sys2Proof.Machine

@[simp] theorem SessionOutcome.andThen_done {α β : Type} (a : α) (h : Session) (f : α → Session → SessionOutcome β) :
    (SessionOutcome.done a h).andThen f = f a h := rfl

@[simp] theorem SessionOutcome.andThen_failed {α β : Type} (e : SessionError) (h : Session)
    (f : α → Session → SessionOutcome β) : (SessionOutcome.failed e h).andThen f = .failed e h := rfl

/-- A property of sessions that both parts keep, the sequence keeps. -/
theorem SessionOutcome.andThen_keeps {α β : Type} (P : Session → Prop) {x : SessionOutcome α}
    {f : α → Session → SessionOutcome β} (hx : P x.session) (hf : ∀ a h, P h → P (f a h).session) :
    P (x.andThen f).session := by
  cases x with
  | done a h => exact hf a h hx
  | failed e h => exact hx

/-- A block command that answers `OK`. -/
theorem Session.issue_ok {h : Session} {i : Instr} {t : State} {d : Word} {w : Bool} (hd : decode (encode i) = i)
    (e : exec i h.block = .next t) (r : t.rsp = some (.ok d w)) :
    h.issue i = .done (d, w) { h with block := t } := by
  simp [Session.issue, hd, e, r]

/-- A block command that answers an error. -/
theorem Session.issue_error {h : Session} {i : Instr} {t : State} {x : ErrorStatus} (hd : decode (encode i) = i)
    (e : exec i h.block = .next t) (r : t.rsp = some (.error x)) :
    h.issue i = .failed (.blockError x) { h with block := t } := by
  simp [Session.issue, hd, e, r]

/-- A transfer takes the next reply and is recorded. -/
theorem Session.transfer_cons {h : Session} {r : BusReply} {rs : List BusReply} (t : Transfer)
    (hr : h.replies = r :: rs) :
    h.transfer t = .done r { h with replies := rs, transfers := h.transfers ++ [t] } := by
  simp [Session.transfer, hr]

/-- However a transfer ends, the session's record grows by exactly that transfer. -/
theorem Session.transfer_transfers (h : Session) (t : Transfer) :
    (h.transfer t).session.transfers = h.transfers ++ [t] := by
  unfold Session.transfer
  split <;> rfl

/-- A write the bus carried out. -/
theorem Session.busWrite_written {h : Session} {rest : List BusReply} (reg : SensorReg) (bs : List Byte)
    (hr : h.replies = .written :: rest) :
    h.busWrite reg bs = .done ()
      { h with replies := rest, transfers := h.transfers ++ [.write Config.deviceAddress (regOffset reg) bs] } := by
  simp only [Session.busWrite, Session.transfer_cons _ hr, SessionOutcome.andThen_done]

/-- A read that returned the register's bytes. -/
theorem Session.busRead_bytes {h : Session} {rest : List BusReply} {bs : List Byte} (reg : SensorReg)
    (hr : h.replies = .bytes bs :: rest) (hb : bs.length = regBytes reg) :
    h.busRead reg = .done bs
      { h with replies := rest, transfers := h.transfers ++ [.read Config.deviceAddress (regOffset reg) (regBytes reg)] } := by
  simp only [Session.busRead, Session.transfer_cons _ hr, SessionOutcome.andThen_done, if_pos hb]

/-- The host's word of two bytes is their big-endian append (rule R33). -/
theorem wordOfBytes_eq_append (byte0 byte1 : Byte) : wordOfBytes byte0 byte1 = byte0 ++ byte1 :=
  concat_eq_append byte0 byte1

/-- A read of a 2-byte register, as a word. -/
theorem Session.readWord_bytes {h : Session} {rest : List BusReply} {b0 b1 : Byte} (reg : SensorReg)
    (hr : h.replies = .bytes [b0, b1] :: rest) (hb : regBytes reg = 2) :
    h.readWord reg = .done (b0 ++ b1)
      { h with replies := rest, transfers := h.transfers ++ [.read Config.deviceAddress (regOffset reg) 2] } := by
  simp [Session.readWord, Session.busRead_bytes reg hr (by simp [hb]), hb, wordOfBytes_eq_append]

end Sys2Proof.Machine
end

