-- ==== Sys2Proof/Laws/Temperature.lean ====
section
/-! SUPPORT. The number behind a temperature word and behind a limit word, so that later proofs are arithmetic. -/

namespace Sys2Proof.Machine

/-- The fields of a temperature word by division (rules R50, R51). -/
theorem tempIntegral_eq (w : Word) : tempIntegral w = w.toNat / 16 % 256 := by
  have e : concat 8 (w.extractLsb' 8 4) (w.extractLsb' 4 4) = w.extractLsb' 4 8 := by
    apply BitVec.eq_of_getLsbD_eq
    intro i hi
    interval_cases i <;> simp
  simp [tempIntegral, e, BitVec.extractLsb'_toNat, Nat.shiftRight_eq_div_pow]

theorem tempFraction_eq (w : Word) : tempFraction w = w.toNat % 16 := by
  simp [tempFraction, BitVec.extractLsb'_toNat]

/-- The bounds of the three fields of a limit word (rules R95 to R97). -/
theorem limitIntegral_lt (n : Int) : limitIntegral n < 256 := by
  unfold limitIntegral
  split <;> omega

theorem limitFraction_lt (n : Int) : limitFraction n < 4 := by
  unfold limitFraction
  omega

theorem limitSign_lt (n : Int) : limitSign n < 2 := by
  unfold limitSign
  split <;> omega

/-- Packing (rule R98): whatever the fields, the two bytes are `4096*s + 16*I + 4*f`. -/
theorem pack_limit_fields : ∀ (s : Fin 2) (f : Fin 4) (i : Fin 256),
    (concat 16 (BitVec.ofNat 8 (s.val <<< 4 ||| i.val >>> 4))
      (BitVec.ofNat 8 ((i.val <<< 4 ||| f.val <<< 2) &&& 0xFF))).toNat = 4096 * s.val + 16 * i.val + 4 * f.val := by
  decide +kernel

/-- "The limit word is data = 4096·s + 16·I + 4·f" (rule R98). -/
theorem limitWord_toNat (n : Int) :
    (limitWord n).toNat = 4096 * limitSign n + 16 * limitIntegral n + 4 * limitFraction n :=
  pack_limit_fields ⟨_, limitSign_lt n⟩ ⟨_, limitFraction_lt n⟩ ⟨_, limitIntegral_lt n⟩

end Sys2Proof.Machine
end

