-- ==== Sys2Proof/Tests/Slice0.lean ====
section
/-! SUPPORT. Small tests, expected results from spec/95_test_vectors.md and the worked examples of the rules (never
from the model), and for every statement with hypotheses a witness that meets them. -/

namespace Sys2Proof.Tests

open Sys2Proof Sys2Proof.Machine Sys2Proof.Safety

/-- The block with the cache loaded from a configuration word. -/
def loaded (w : Word) : State := State.reset.loadCache (Cfg.ofWord w)

/-- The response word of one step, if it completes with a response. -/
def wireOf : Host.Outcome State Fault Refusal → Option ResponseWord
  | .next t    => t.rsp.map Response.wire
  | .fault _   => none
  | .refused _ => none

/-- The response word of a command word presented to a state. -/
def run (s : State) (c : Command) : Option ResponseWord := wireOf (step (s.present (.command c)))

/-- `CFG_VALID` and `CFG_IMG` after a command word. -/
def cacheAfter (s : State) (c : Command) : Option (Bool × Word) :=
  match step (s.present (.command c)) with
  | .next t    => some (t.cfgValid, t.cfg.image)
  | .fault _   => none
  | .refused _ => none

/-! ### WellFormed smoke: an ill-formed term for each check -/

theorem test_commandNumber_too_wide : commandNumberWellFormed (2 ^ 36) = false := by decide
theorem test_commandNumber_widest : commandNumberWellFormed (2 ^ 36 - 1) = true := by decide
theorem test_decodeTableWord_rejects : decodeTableWord 40 (2 ^ 36) = none := by decide
theorem test_registerWidth_none : registerWidth 0x00#8 = none ∧ registerWidth 0x09#8 = none := by decide
theorem test_transfer_above_map (a : BitVec 7) : (Transfer.read a 0x09#8 2).wellFormed = false := rfl
theorem test_transfer_half_register (a : BitVec 7) : (Transfer.read a 0x05#8 1).wellFormed = false := rfl
theorem test_transfer_read_only (a : BitVec 7) : (Transfer.write a 0x06#8 [0x00#8, 0x54#8]).wellFormed = false := rfl
theorem test_registerWritable : registerWritable 0x05#8 = false ∧ registerWritable 0x08#8 = true := by decide

/-! ### Decoding: words written out from the command map (rules R65 to R75), op field in binary first -/

theorem test_decode_decT : decode 0b0000_0000000000000000_1100000110100100#36 = .decT 0xC1A4#16 := by decide
theorem test_decode_decF : decode 0b0001_1111111111111111_0110000110100100#36 = .decF 0x61A4#16 := by decide
theorem test_decode_encL : decode 0b0010_0000000000000000_1111111111111100#36 = .encL 0xFFFC#16 := by decide
theorem test_decode_decR : decode 0b0011_111111111111111111111111_00000010#36 = .decR 0x02#8 := by decide
theorem test_decode_encR : decode 0b0100_000000000000000000000000_00000101#36 = .encR 0x05#8 := by decide
theorem test_decode_decC : decode 0b0101_0000000000000000_0000010110101010#36 = .decC 0x05AA#16 := by decide
theorem test_decode_ldC : decode 0b0110_0000000000000000_0000010000001000#36 = .ldC 0x0408#16 := by decide
theorem test_decode_encC_hyst :
    decode 0b0111_00000000_00000010_0000000_000000001#36 = .encC { noOverrides with hyst := some 2#8 } := by decide
theorem test_decode_encC_all_but_int_clear :
    decode 0x7500101EF#36 = .encC ⟨some 1#8, some false, some false, some false, none, some true, some false,
      some true, some false⟩ := by decide
theorem test_decode_rdC : decode 0x8DEADBEEF#36 = .rdC := by decide
theorem test_decode_reserved :
    decode 0x900000000#36 = .reserved9 ∧ decode 0xA00001234#36 = .reservedA ∧ decode 0xB00000000#36 = .reservedB ∧
      decode 0xC00000000#36 = .reservedC ∧ decode 0xD00000000#36 = .reservedD ∧ decode 0xE00000000#36 = .reservedE ∧
      decode 0xFFFFFFFFF#36 = .reservedF := by decide
theorem test_withFetchWord_runs :
    wireOf (step (State.reset.withFetchWord 40 0x00000C1A4)) = some 0x001A4#20 := by decide

/-! ### One step each (95_test_vectors.md Part 2) -/

theorem test_decT_smallest : run State.reset 0x00000F000#36 = some 0x0F000#20 := by decide
theorem test_decT_flags_ignored : run State.reset 0x00000C1A4#36 = some 0x001A4#20 := by decide
theorem test_decF_crit_lower : run State.reset 0x10000A000#36 = some 0x00005#20 := by decide
theorem test_decF_temperature_ignored : run State.reset 0x100001FFF#36 = some 0x00000#20 := by decide
theorem test_encL_source_example : run State.reset 0x20000FFFC#36 = some 0x01FFC#20 := by decide
theorem test_encL_truncates_negative : run State.reset 0x20000F801#36 = some 0x11814#20 := by decide
theorem test_decR_not_masked : run State.reset 0x300000083#36 = some 0x20000#20 := by decide
theorem test_decR_level : run State.reset 0x3FFFFFF02#36 = some 0x00002#20 := by decide
theorem test_encR_level : run State.reset 0x400000003#36 = some 0x00003#20 := by decide
theorem test_encR_illegal : run State.reset 0x400000004#36 = some 0x20000#20 := by decide
theorem test_decC_drops_bit5 : run State.reset 0x5000005AA#36 = some 0x0058A#20 := by decide
theorem test_decC_all_ones : run State.reset 0x50000FFFF#36 = some 0x007DF#20 := by decide
theorem test_ldC_loads : cacheAfter (loaded 0x0008#16) 0x600000030#36 = some (true, 0x0010#16) := by decide
theorem test_ldC_response : run State.reset 0x60000FFFF#36 = some 0x007DF#20 := by decide
theorem test_encC_two_overrides : run (loaded 0x0008#16) 0x70600000C#36 = some 0x000C8#20 := by decide
theorem test_encC_validation_before_noCache : run State.reset 0x700070001#36 = some 0x20000#20 := by decide
theorem test_rdC_image : run (loaded 0x0030#16) 0x8DEADBEEF#36 = some 0x00010#20 := by decide
theorem test_rdC_noCache : run State.reset 0x800000000#36 = some 0x40000#20 := by decide
theorem test_reserved_no_change :
    run (loaded 0x0010#16) 0xA00001234#36 = some 0x60000#20 ∧
      cacheAfter (loaded 0x0010#16) 0xA00001234#36 = some (true, 0x0010#16) := by decide
theorem test_reset_input_invalidates :
    (match step ((loaded 0x07DF#16).present .resetInput) with
      | .next t => some (t.cfgValid, t.rsp)
      | .fault _ => none
      | .refused _ => none) = some (false, none) := by decide

/-! ### The host contract (95_test_vectors.md programs P1, P2, P3) -/

/-- A session over a block state with these bus replies to come. -/
def session (s : State) (replies : List BusReply) : Session :=
  { block := s, replies := replies, transfers := [], diagnostics := [] }

theorem test_init_seeds_cache :
    ((session State.reset [.bytes [0x00#8, 0x54#8], .bytes [0x04#8, 0x00#8],
      .bytes [0x00#8, 0x08#8]]).initAgainst 0x00#8).session.block.cfg.image = 0x0008#16 := by decide
theorem test_init_wrong_manufacturer :
    ((session State.reset [.bytes [0x00#8, 0x55#8]]).initAgainst 0x00#8).session.block.cfgValid = false := by decide
theorem test_setLimit_warns :
    ((session State.reset [.written, .bytes [0x07#8, 0xE0#8]]).setLimit .critical 0x07E0#16).session.diagnostics =
      [.limitUnreachable .critical] := by decide
theorem test_setLimit_refused_by_lock :
    ((session State.reset [.written, .bytes [0x07#8, 0xE0#8]]).setLimit .critical 0x0500#16).session.diagnostics =
      [.limitDivergence .critical] := by decide
theorem test_unlock_refused :
    ((session (loaded 0x0488#16) [.written, .bytes [0x04#8, 0x88#8]]).setCriticalLock false).session.diagnostics =
      [.configDivergence] := by decide
theorem test_int_clear_no_divergence :
    ((session (loaded 0x0018#16) [.written, .bytes [0x00#8, 0x08#8]]).clearInterrupt).session.diagnostics = [] := by
  decide

/-! ### Witnesses: for each statement with hypotheses, what meets them -/

theorem witness_IgnoredBitsHaveNoEffect :
    0x0FFFF01A4#36 &&& usedBits 0x0FFFF01A4#36 = 0x0000001A4#36 &&& usedBits 0x0000001A4#36 ∧
      0x700FF0000#36 &&& usedBits 0x700FF0000#36 = 0x700000000#36 &&& usedBits 0x700000000#36 := by decide

theorem witness_StepRunsDecodedCommand :
    (State.reset.present (.command 0x600000008#36)).pending = .command 0x600000008#36 :: [] := rfl

theorem witness_StepTakesResetInput :
    ((loaded 0x0008#16).present .resetInput).pending = .resetInput :: [] := rfl

theorem witness_StepWithNothingPresentedIdles : (loaded 0x0008#16).pending = [] := rfl

theorem witness_ReservedCodesAnswerIllegalOp :
    9 ≤ ((0x900000000#36).extractLsb' 32 4).toNat ∧ 9 ≤ ((0xFFFFFFFFF#36).extractLsb' 32 4).toNat ∧
      Instr.reserved9 ∈ [Instr.reserved9, .reservedA, .reservedB, .reservedC, .reservedD, .reservedE, .reservedF] ∧
      Instr.reservedF ∈ [Instr.reserved9, .reservedA, .reservedB, .reservedC, .reservedD, .reservedE, .reservedF] := by
  decide

theorem witness_DecTRangeFollowsSignBit :
    (0x1000#16).getLsbD 12 = true ∧ (0x0FFF#16).getLsbD 12 = false ∧ 12 ≤ 15 ∧ 15 < 16 := by decide

/-- Both clauses at their boundaries: 2033 and -2049 are out, 2032 and -2048 in. -/
theorem witness_DecTDecodesEveryResolution :
    LowBitsZero 0#2 0x01A8#16 ∧ LowBitsZero 3#2 0x1FFF#16 := by
  unfold LowBitsZero
  decide

theorem witness_EncLValidatesItsOperand :
    2032 < (0x07F1#16).toInt ∧ (0xF7FF#16).toInt < -2048 ∧
      (-2048 ≤ (0x07F0#16).toInt ∧ (0x07F0#16).toInt ≤ 2032) ∧
      (-2048 ≤ (0xF800#16).toInt ∧ (0xF800#16).toInt ≤ 2032) := by decide

/-- The bounds of the fields', warning's and round-trip statements, and each of R96's three ranges. -/
theorem witness_EncLFieldsOfTheLimitWord :
    (-2048 ≤ (0xFFFF#16).toInt ∧ (0xFFFF#16).toInt ≤ 2032 ∧ -16 < (0xFFFF#16).toInt ∧ (0xFFFF#16).toInt < 0) ∧
      (-2048 ≤ (0xFFF0#16).toInt ∧ (0xFFF0#16).toInt ≤ 2032 ∧ ¬ -16 < (0xFFF0#16).toInt) ∧
      (-2048 ≤ (0x0000#16).toInt ∧ (0x0000#16).toInt ≤ 2032 ∧ 0 ≤ (0x0000#16).toInt) := by decide

/-- -2.5 degrees and -0.0625 degrees: m = 40 and m = 1, the two shapes of the negative closed form. -/
theorem witness_EncLClosedForm :
    (-2048 ≤ (0xFFD8#16).toInt ∧ (0xFFD8#16).toInt ≤ 2032 ∧ (0xFFD8#16).toInt = -((40 : Nat) : Int) ∧ 0 < 40 ∧
      2 = 40 / 16 ∧ 2 = 40 % 16 / 4 ∧ 254 = (if 2 = 0 then 0xFF else 256 - 2) ∧ 2 = (4 - 2) % 4) ∧
    ((0xFFFF#16).toInt = -((1 : Nat) : Int) ∧ 0 = 1 / 16 ∧ 0 = 1 % 16 / 4 ∧
      255 = (if 0 = 0 then 0xFF else 256 - 0) ∧ 0 = (4 - 0) % 4) ∧
    0 ≤ (0x07F0#16).toInt := by decide

theorem witness_EncLWarnsOutsideOperatingRange :
    (-2048 ≤ (0x07D1#16).toInt ∧ (0x07D1#16).toInt ≤ 2032 ∧ 2000 < (0x07D1#16).toInt) ∧
      (-2048 ≤ (0xFD80#16).toInt ∧ (0xFD80#16).toInt ≤ 2032 ∧ ¬ (0xFD80#16).toInt < -640) := by decide

/-- One operand for each row of rule R101's table. -/
theorem witness_LimitRoundTripTable :
    0 ≤ (0x07EF#16).toInt ∧
      ((0xFFEF#16).toInt = -((17 : Nat) : Int) ∧ 16 ≤ 17 ∧ 0 = 17 % 16 / 4 ∧ 1 = 17 / 16) ∧
      ((0xF801#16).toInt = -((2047 : Nat) : Int) ∧ 16 ≤ 2047 ∧ 1 ≤ 3 ∧ 3 = 2047 % 16 / 4 ∧ 127 = 2047 / 16) ∧
      ((0xFFF1#16).toInt = -((15 : Nat) : Int) ∧ 4 ≤ 15 ∧ 15 ≤ 15 ∧ 3 = 15 % 16 / 4) ∧
      ((0xFFFD#16).toInt = -((3 : Nat) : Int) ∧ 1 ≤ 3 ∧ 3 ≤ 3) := by decide

theorem witness_LimitRoundTripWithinQuarterDegree :
    (-2048 ≤ (0xFFFC#16).toInt ∧ (0xFFFC#16).toInt ≤ 2032) ∧
      (-2048 ≤ (0xFFEC#16).toInt ∧ (0xFFEC#16).toInt ≤ 2032) := by decide

theorem witness_StateFreeCommandsArePure :
    StateFree (.encL 0x07F1#16) ∧ StateFree (.decT 0xC1A4#16) ∧ StateFree .reservedF := ⟨trivial, trivial, trivial⟩

theorem witness_ResolutionLevelsPassThrough : (0x03#8).toNat ≤ 3 ∧ 3 < (0x04#8).toNat := by decide

theorem witness_ResolutionRoundTrip : (0x03#8).toNat ≤ 3 := by decide

theorem witness_CacheImageIsCanonical :
    (Cfg.ofWord 0xFFFF#16).intClear = false ∧ ∃ t, exec (.ldC 0xFFFF#16) State.reset = .next t := ⟨rfl, _, rfl⟩

theorem witness_LdCDoesNotJudge : (0x0000#16).getLsbD 7 = false ∧ (loaded 0x0080#16).cfg.critLock = true := by decide

/-- A loaded cache, and an empty one with all eight cached fields overridden. -/
theorem witness_EncCEncodesOverridesOverCache :
    CanEncode { noOverrides with hyst := some 3#8 } (loaded 0x0008#16) ∧
      CanEncode ⟨some 3#8, some true, some true, some true, none, some true, some true, some true, some true⟩
        State.reset :=
  ⟨⟨fun h e => by injection e with e; subst e; decide, .inl rfl⟩,
    ⟨fun h e => by injection e with e; subst e; decide, .inr (by decide)⟩⟩

theorem witness_EncCErrorsInOrder :
    (({ noOverrides with hyst := some 4#8 } : Overrides).hyst = some 4#8 ∧ 3 < (4#8).toNat) ∧
      (HystLegal noOverrides ∧ State.reset.cfgValid = false ∧ ¬ AllCachedOverridden noOverrides) ∧
      CanEncode { noOverrides with hyst := some 3#8 } (loaded 0x0008#16) :=
  ⟨by decide, ⟨fun h e => (by cases e), rfl, by decide⟩,
    ⟨fun h e => by injection e with e; subst e; decide, .inl rfl⟩⟩

theorem witness_ConfigRoundTrip : (3#8).toNat ≤ 3 := by decide

theorem witness_HysteresisUpdateKeepsOtherFields :
    (3#8).toNat ≤ 3 ∧ (loaded 0x01CF#16).cfgValid = true := by decide

/-- Two caches that differ in the overridden field only. -/
theorem witness_EncCReadsOnlyDefaultedFields :
    SameDefaults { noOverrides with hyst := some 1#8 } (loaded 0x0608#16).cfg (Cfg.ofWord 0x0008#16) ∧
      (loaded 0x0608#16).cfg ≠ Cfg.ofWord 0x0008#16 :=
  ⟨⟨fun e => (by cases e), fun _ => rfl, fun _ => rfl, fun _ => rfl, fun _ => rfl, fun _ => rfl, fun _ => rfl,
    fun _ => rfl⟩, by decide⟩

theorem witness_RdCReadsTheCache : (loaded 0x07DF#16).cfgValid = true ∧ State.reset.cfgValid = false := by decide

theorem witness_ErrorsChangeNothing :
    ∃ t, exec .rdC State.reset = .next t ∧ t.rsp = some (.error .noCache) := ⟨_, rfl, rfl⟩

theorem witness_ResponseWordFormat :
    ∃ t r, exec (.encL 0x07E0#16) State.reset = .next t ∧ t.rsp = some r ∧ r.wire.getLsbD 16 = true :=
  ⟨_, _, rfl, rfl, by decide⟩

theorem witness_CfgValidRecordsALoad :
    (∃ t, (loaded 0x0008#16).cfgValid = true ∧ step ((loaded 0x0008#16).present .resetInput) = .next t ∧
      t.cfgValid = false) ∧ State.reset.cfgValid = false := ⟨⟨_, rfl, rfl, rfl⟩, rfl⟩

/-- A state with a response at its port that carries the warning. -/
theorem witness_EveryStepKeepsTheInvariant :
    Inv { loaded 0x07DF#16 with rsp := some (.ok 0x07E0#16 true) } := by
  refine ⟨rfl, ?_⟩
  intro r h
  injection h with h
  subst h
  unfold LegalResponseWord
  decide

/-- Two different states that agree in everything observable. -/
theorem witness_UnspecifiedCacheIsUnobservable :
    SameObservable State.reset { State.reset with cfg := Cfg.ofWord 0xFFFF#16 } ∧
      State.reset ≠ { State.reset with cfg := Cfg.ofWord 0xFFFF#16 } :=
  ⟨⟨rfl, fun h => (by cases h), rfl, rfl⟩, by decide⟩

theorem witness_StaleCacheUndoesAnUpdate : (2#8).toNat ≤ 3 ∧ (loaded 0x0000#16).cfgValid = true := by decide

theorem witness_FailedEncodeWritesNothing :
    2032 < (0x0820#16).toInt ∧ (0xF380#16).toInt < -2048 ∧ 3 < (0x05#8).toNat ∧
      ¬ CanEncode noOverrides (session State.reset []).block :=
  ⟨by decide, by decide, by decide, fun h => by
    rcases h.2 with h | h
    · cases h
    · exact absurd h (by decide)⟩

theorem witness_InitChecksIdentityThenSeedsTheCache :
    ((session State.reset [.bytes [0x00#8, 0x55#8]]).replies = .bytes [0x00#8, 0x55#8] :: [] ∧
      ¬ ((0x00#8) = 0x00#8 ∧ (0x55#8) = 0x54#8)) ∧
    ((session State.reset [.bytes [0x00#8, 0x54#8], .bytes [0x05#8, 0x00#8]]).replies =
      .bytes [0x00#8, 0x54#8] :: .bytes [0x05#8, 0x00#8] :: [] ∧ (0x05#8) ≠ 0x04#8) ∧
    (session State.reset [.bytes [0x00#8, 0x54#8], .bytes [0x04#8, 0x00#8], .bytes [0x00#8, 0x08#8]]).replies =
      .bytes [0x00#8, 0x54#8] :: .bytes [0x04#8, 0x00#8] :: .bytes [0x00#8, 0x08#8] :: [] := by decide

/-- Also for `TransportErrorIsPropagated`, both of whose clauses fit a session of their own. -/
theorem witness_ApplyCfgReloadsFromTheRegister :
    CanEncode noOverrides (session (loaded 0x0008#16) [.written, .bytes [0x04#8, 0x08#8]]).block ∧
      (session (loaded 0x0008#16) [.written, .bytes [0x04#8, 0x08#8]]).replies =
        .written :: .bytes [0x04#8, 0x08#8] :: [] :=
  ⟨⟨fun h e => (by cases e), .inl rfl⟩, rfl⟩

theorem witness_RefusedUnlockIsADivergence :
    CacheHolds (session (loaded 0x0488#16) [.written, .bytes [0x04#8, 0x88#8]]).block 0x0488#16 ∧
      (0x0488#16).getLsbD 7 = true ∧ LocksHold 0x0488#16 (0x04#8 ++ 0x88#8) ∧
      (session (loaded 0x0488#16) [.written, .bytes [0x04#8, 0x88#8]]).replies =
        .written :: .bytes [0x04#8, 0x88#8] :: [] :=
  ⟨⟨rfl, rfl⟩, by decide, ⟨fun _ => by decide, fun h => absurd h (by decide)⟩, rfl⟩

theorem witness_SetLimitWritesAndReadsBack :
    -2048 ≤ (0xF800#16).toInt ∧ (0xF800#16).toInt ≤ 2032 ∧
      (session State.reset [.written, .bytes [0x18#8, 0x00#8]]).replies =
        .written :: .bytes [0x18#8, 0x00#8] :: [] := by decide

/-- A locked critical limit that still holds 30 degrees when 80 are asked for. -/
theorem witness_RefusedLimitWriteIsADivergence :
    (-2048 ≤ (0x0500#16).toInt ∧ (0x0500#16).toInt ≤ 2032 ∧ lockBit .critical 0x0080#16 = true ∧
      lockBit .upper 0x0040#16 = true) ∧ LockedLimitHolds .critical 0x0080#16 0x01E0#16 (0x01#8 ++ 0xE0#8) ∧
    (session State.reset [.written, .bytes [0x01#8, 0xE0#8]]).replies = .written :: .bytes [0x01#8, 0xE0#8] :: [] ∧
    exec (.encL 0x0500#16) State.reset = .next { State.reset with rsp := some (.ok 0x0500#16 false) } :=
  ⟨by decide, fun _ => by decide, rfl, rfl⟩

theorem witness_SetResWritesAndReadsBack :
    (0x03#8).toNat ≤ 3 ∧ (session State.reset [.written, .bytes [0x03#8]]).replies =
      .written :: .bytes [0x03#8] :: [] := by decide

theorem witness_ReadTempAndFlagsDecodeOneReadEach :
    (session State.reset [.bytes [0xC1#8, 0xA4#8]]).replies = .bytes [0xC1#8, 0xA4#8] :: [] := by decide

theorem witness_TransportErrorIsPropagated :
    CanEncode noOverrides (session (loaded 0x0008#16) [.transportError]).block ∧
      (session (loaded 0x0008#16) [.transportError]).replies = .transportError :: [] ∧
      (session (loaded 0x0008#16) [.written, .transportError]).replies = .written :: .transportError :: [] :=
  ⟨⟨fun h e => (by cases e), .inl rfl⟩, rfl, rfl⟩

theorem witness_SessionTransfersStayInTheMap : TransfersLegal (session (loaded 0x0008#16) []) := by
  intro t h
  cases h

end Sys2Proof.Tests
end

/-! SUPPORT. The response words an instruction can answer, the invariant, and what a step does to the cache. -/

namespace Sys2Proof.Machine

open Sys2Proof.Safety

/-! ### Legal response words (rule R70) -/

theorem legalResponseWord_error (e : ErrorStatus) : LegalResponseWord (Response.error e).wire := by
  unfold LegalResponseWord
  cases e <;> decide

/-- The bits of an `OK` response word: `{0, warn, data}` (rule R70). -/
theorem getElem_wire_ok (data : Word) (warn : Bool) (i : Nat) (hi : i < 20) :
    (Response.ok data warn).wire[i] = ((decide (i = 16) && warn) || data.getLsbD i) := by
  simp [Response.wire]

/-- An `OK` response is legal as soon as data that carries the warning has the bits of a limit word only. -/
theorem legalResponseWord_ok {data : Word} {warn : Bool} (h : warn = true → data &&& 0xE003#16 = 0#16) :
    LegalResponseWord (Response.ok data warn).wire := by
  have hstatus : (Response.ok data warn).wire.extractLsb' 17 3 = 0#3 := by
    apply BitVec.eq_of_getLsbD_eq
    intro i hi
    interval_cases i <;> simp [getElem_wire_ok]
  refine ⟨by simp [getElem_wire_ok], fun hne => absurd hstatus hne, fun hwarn => ?_⟩
  have hwarn : warn = true := by simpa [getElem_wire_ok] using hwarn
  calc (Response.ok data warn).wire &&& 0x0E003#20
      = (data &&& 0xE003#16).setWidth 20 := by
        apply BitVec.eq_of_getLsbD_eq
        intro i hi
        interval_cases i <;> simp [getElem_wire_ok]
    _ = 0#20 := by rw [h hwarn]; rfl

theorem legalResponseWord_ok_unflagged (data : Word) : LegalResponseWord (Response.ok data false).wire :=
  legalResponseWord_ok (fun h => nomatch h)

/-- A limit word has bits 15:13 and 1:0 zero (rule R52): it is below 8192 and a multiple of 4. -/
theorem limitWord_and_unused_bits (n : Int) : limitWord n &&& 0xE003#16 = 0#16 := by
  have hs := limitSign_lt n
  have hi := limitIntegral_lt n
  have hf := limitFraction_lt n
  have hbit : ∀ (k : Nat) (hk : k < 16), (limitWord n)[k] = decide ((limitWord n).toNat / 2 ^ k % 2 = 1) := by
    intro k hk
    rw [BitVec.getElem_eq_testBit_toNat, Nat.testBit_eq_decide_div_mod_eq]
  apply BitVec.eq_of_getLsbD_eq
  intro k hk
  interval_cases k <;> simp [hbit, limitWord_toNat] <;> omega

/-! ### The invariant -/

theorem inv_respond {s : State} {r : Response} (hs : s.cfg.intClear = false) (hr : LegalResponseWord r.wire) :
    Inv (s.respond r) :=
  ⟨hs, fun q hq => by cases hq; exact hr⟩

theorem inv_of_no_response {s : State} (hs : s.cfg.intClear = false) (hr : s.rsp = none) : Inv s :=
  ⟨hs, fun q hq => by rw [hr] at hq; cases hq⟩

/-- Every response is legal: only `ENC_L` sets the warning, and it answers a limit word (rules R70, R160). -/
theorem exec_legal_response (i : Instr) (s : State) :
    ∃ t r, exec i s = .next t ∧ t.rsp = some r ∧ LegalResponseWord r.wire := by
  cases i with
  | decT w => exact ⟨_, _, rfl, rfl, legalResponseWord_ok_unflagged _⟩
  | decF w => exact ⟨_, _, rfl, rfl, legalResponseWord_ok_unflagged _⟩
  | encL q =>
    by_cases h : -2048 ≤ q.toInt ∧ q.toInt ≤ 2032
    · exact ⟨_, _, execEncL_of_legal h s, rfl, legalResponseWord_ok fun _ => limitWord_and_unused_bits _⟩
    · exact ⟨_, _, execEncL_of_illegal h s, rfl, legalResponseWord_error _⟩
  | decR b | encR b =>
    rcases Nat.lt_or_ge 3 b.toNat with h | h
    · exact ⟨_, _, passLevel_of_not_level h s, rfl, legalResponseWord_error _⟩
    · exact ⟨_, _, passLevel_of_level h s, rfl, legalResponseWord_ok_unflagged _⟩
  | decC w | ldC w => exact ⟨_, _, rfl, rfl, legalResponseWord_ok_unflagged _⟩
  | encC o =>
    rcases execEncC_cases o s with ⟨-, h⟩ | ⟨-, -, -, h⟩ | ⟨-, -, h⟩
    · exact ⟨_, _, h, rfl, legalResponseWord_error _⟩
    · exact ⟨_, _, h, rfl, legalResponseWord_error _⟩
    · exact ⟨_, _, h, rfl, legalResponseWord_ok_unflagged _⟩
  | rdC =>
    rcases execRdC_cases s with ⟨-, h⟩ | ⟨-, h⟩
    · exact ⟨_, _, h, rfl, legalResponseWord_ok_unflagged _⟩
    · exact ⟨_, _, h, rfl, legalResponseWord_error _⟩
  | reserved9 | reservedA | reservedB | reservedC | reservedD | reservedE | reservedF =>
    exact ⟨_, _, rfl, rfl, legalResponseWord_error _⟩

/-- No instruction sets the hard-wired field (rule R17). -/
theorem exec_keeps_intClear {i : Instr} {s t : State} (hs : s.cfg.intClear = false) (ht : exec i s = .next t) :
    t.cfg.intClear = false := by
  rcases exec_cases i s with ⟨r, h⟩ | ⟨w, -, h⟩ <;> cases ht.symm.trans h
  · exact hs
  · rfl

theorem exec_establishes_inv (i : Instr) {s : State} (hs : s.cfg.intClear = false) :
    ∃ t, exec i s = .next t ∧ Inv t := by
  obtain ⟨t, r, ht, hr, hlegal⟩ := exec_legal_response i s
  refine ⟨t, ht, exec_keeps_intClear hs ht, fun q hq => ?_⟩
  cases hr.symm.trans hq
  exact hlegal

theorem step_keeps_inv {s : State} (hs : Inv s) : ∃ t, step s = .next t ∧ Inv t := by
  obtain ⟨hclear, -⟩ := hs
  match hp : s.pending with
  | [] => exact ⟨_, step_nil hp, inv_of_no_response hclear rfl⟩
  | .resetInput :: rest => exact ⟨_, step_reset hp, inv_of_no_response rfl rfl⟩
  | .command c :: rest => rw [step_command hp]; exact exec_establishes_inv _ hclear

/-- Settles O42: the hard-wired field resets to 0 and no response is at the port. -/
theorem invariantHoldsAtReset : Obligations.InvariantHoldsAtReset := by
  unfold Obligations.InvariantHoldsAtReset
  exact inv_of_no_response rfl rfl

/-- Settles O43, by the three kinds of step; the one flagged response carries a limit word. -/
theorem everyStepKeepsTheInvariant : Obligations.EveryStepKeepsTheInvariant := by
  unfold Obligations.EveryStepKeepsTheInvariant
  exact fun s hs => step_keeps_inv hs

/-- Settles O5: the step accepts the command and runs it. -/
theorem stepRunsDecodedCommand : Obligations.StepRunsDecodedCommand := by
  unfold Obligations.StepRunsDecodedCommand
  intro s c rest hp
  exact step_command hp

/-! ### What a step does to the cache -/

/-- A step keeps the cache, runs an `LD_C`, or takes the reset input (rules R23, R24, R181). -/
theorem step_cache_cases (s : State) :
    ∃ t, step s = .next t ∧
      ((t.cfg = s.cfg ∧ t.cfgValid = s.cfgValid) ∨
        (∃ c w rest, s.pending = .command c :: rest ∧ decode c = .ldC w ∧ CacheHolds t w) ∨
        (∃ rest, s.pending = .resetInput :: rest ∧ t.cfgValid = false)) := by
  match hp : s.pending with
  | [] => exact ⟨_, step_nil hp, .inl ⟨rfl, rfl⟩⟩
  | .resetInput :: rest => exact ⟨_, step_reset hp, .inr (.inr ⟨rest, rfl, rfl⟩)⟩
  | .command c :: rest =>
    rw [step_command hp]
    rcases exec_cases (decode c) { s with pending := rest } with ⟨r, h⟩ | ⟨w, hw, h⟩
    · exact ⟨_, h, .inl ⟨rfl, rfl⟩⟩
    · exact ⟨_, h, .inr (.inl ⟨c, w, rest, rfl, hw, rfl, rfl⟩)⟩

/-- Settles O41, by the three kinds of step. -/
theorem onlyLoadAndResetChangeTheCache : Obligations.OnlyLoadAndResetChangeTheCache := by
  unfold Obligations.OnlyLoadAndResetChangeTheCache
  exact step_cache_cases

/-- Nothing but the reset input clears `CFG_VALID` (rule R11). -/
theorem resetInput_of_cfgValid_cleared {s t : State} (hs : s.cfgValid = true) (h : step s = .next t)
    (ht : t.cfgValid = false) : ∃ rest, s.pending = .resetInput :: rest := by
  obtain ⟨u, hu, hcases⟩ := step_cache_cases s
  cases h.symm.trans hu
  rcases hcases with ⟨-, hkept⟩ | ⟨-, -, -, -, -, hloaded, -⟩ | ⟨rest, hp, -⟩
  · simp [hs, ht] at hkept
  · simp [ht] at hloaded
  · exact ⟨rest, hp⟩

end Sys2Proof.Machine

/-! SUPPORT. What a response depends on: the operand alone, the defaulted fields of the cache, or the cache while
it is valid. -/

namespace Sys2Proof.Machine

open Sys2Proof.Safety

/-! ### Commands that read no state -/

/-- A state-free command answers one response, the same from every state (rules R23, R80). -/
theorem exec_stateFree {i : Instr} (hi : StateFree i) : ∃ r, ∀ s, exec i s = .next (s.respond r) := by
  cases i with
  | decT w | decF w | decC w => exact ⟨_, fun s => rfl⟩
  | encL q =>
    by_cases h : -2048 ≤ q.toInt ∧ q.toInt ≤ 2032
    · exact ⟨_, execEncL_of_legal h⟩
    · exact ⟨_, execEncL_of_illegal h⟩
  | decR b | encR b =>
    rcases Nat.lt_or_ge 3 b.toNat with h | h
    · exact ⟨_, passLevel_of_not_level h⟩
    · exact ⟨_, passLevel_of_level h⟩
  | ldC w | encC o | rdC => cases hi
  | reserved9 | reservedA | reservedB | reservedC | reservedD | reservedE | reservedF => exact ⟨_, fun s => rfl⟩

/-- Settles O21, by the responses of the state-free commands. -/
theorem stateFreeCommandsArePure : Obligations.StateFreeCommandsArePure := by
  unfold Obligations.StateFreeCommandsArePure
  intro i hi
  exact exec_stateFree hi

/-! ### `ENC_C` by its three outcomes, and the fields it reads -/

theorem execEncC_of_illegal {o : Overrides} (ho : hystIllegal o = true) (s : State) :
    execEncC o s = .next (s.respond (.error .validationError)) := by
  simp [execEncC, ho, raise]

theorem execEncC_of_noCache {o : Overrides} {s : State} (ho : hystIllegal o = false) (hs : s.cfgValid = false)
    (hn : needsCache o = true) : execEncC o s = .next (s.respond (.error .noCache)) := by
  simp [execEncC, ho, hs, hn, raise]

theorem execEncC_of_encodes {o : Overrides} {s : State} (ho : hystIllegal o = false)
    (h : s.cfgValid = true ∨ needsCache o = false) :
    execEncC o s = .next (s.respond (.ok (encodeConfig o s.cfg) false)) := by
  rcases h with h | h <;> simp [execEncC, ho, h, finish]

/-- A choice reads its default only where there is no override (rule R127). -/
theorem pick_congr {α : Type} {v : Option α} {a b : α} (h : v = none → a = b) : pick v a = pick v b := by
  cases v with
  | none => exact h rfl
  | some x => rfl

/-- The encoded word reads the defaulted fields only (rules R23, R127). -/
theorem encodeConfig_congr {o : Overrides} {c d : Cfg} (h : SameDefaults o c d) :
    encodeConfig o c = encodeConfig o d := by
  obtain ⟨hyst, shdn, critLock, winLock, alertEn, alertSel, alertPol, alertMode⟩ := h
  simp only [encodeConfig, Cfg.readIntClear_eq, pick_congr shdn, pick_congr critLock, pick_congr winLock,
    pick_congr alertEn, pick_congr alertSel, pick_congr alertPol, pick_congr alertMode]
  rw [pick_congr fun hn => hyst (Option.map_eq_none_iff.1 hn)]

theorem sameDefaults_refl (o : Overrides) (c : Cfg) : SameDefaults o c c :=
  ⟨fun _ => rfl, fun _ => rfl, fun _ => rfl, fun _ => rfl, fun _ => rfl, fun _ => rfl, fun _ => rfl, fun _ => rfl⟩

/-- With every cached field overridden any two caches do (rule R131). -/
theorem sameDefaults_of_not_needsCache {o : Overrides} (h : needsCache o = false) (c d : Cfg) :
    SameDefaults o c d := by
  have overridden : ∀ {α β : Type} {v : Option α} {x y : β}, v.isSome = true → v = none → x = y := by
    intro α β v x y hsome hnone
    simp [hnone] at hsome
  obtain ⟨h0, h1, h2, h3, h5, h6, h7, h8⟩ := (needsCache_eq_false o).1 h
  exact ⟨overridden h0, overridden h1, overridden h2, overridden h3, overridden h5, overridden h6,
    overridden h7, overridden h8⟩

/-- Two states with the same `CFG_VALID` and, when there is a word to encode, the same defaulted fields are
answered alike. -/
theorem execEncC_same_response {o : Overrides} {s t : State} (hv : s.cfgValid = t.cfgValid)
    (hd : s.cfgValid = true ∨ needsCache o = false → SameDefaults o s.cfg t.cfg) :
    ∃ r, execEncC o s = .next (s.respond r) ∧ execEncC o t = .next (t.respond r) := by
  rcases execEncC_cases o s with ⟨ho, hs⟩ | ⟨ho, hinv, hn, hs⟩ | ⟨ho, hc, hs⟩
  · exact ⟨_, hs, execEncC_of_illegal ho t⟩
  · exact ⟨_, hs, execEncC_of_noCache ho (hv ▸ hinv) hn⟩
  · rw [encodeConfig_congr (hd hc)] at hs
    exact ⟨_, hs, execEncC_of_encodes ho (hv ▸ hc)⟩

/-- Settles O33, by the fields the encoded word reads. -/
theorem encCReadsOnlyDefaultedFields : Obligations.EncCReadsOnlyDefaultedFields := by
  unfold Obligations.EncCReadsOnlyDefaultedFields
  intro o s c h
  exact execEncC_same_response (t := { s with cfg := c }) rfl fun _ => h

/-! ### An invalid cache is not read -/

theorem execRdC_of_valid {s : State} (h : s.cfgValid = true) :
    execRdC s = .next (s.respond (.ok s.cfg.image false)) := by
  simp [execRdC, h, finish]

theorem execRdC_of_invalid {s : State} (h : s.cfgValid = false) :
    execRdC s = .next (s.respond (.error .noCache)) := by
  simp [execRdC, h, raise]

/-- An instruction keeps observable equality, whatever was at the two response ports before (rule R11). -/
theorem exec_keeps_sameObservable (i : Instr) {s t : State} (hvalid : s.cfgValid = t.cfgValid)
    (hcfg : s.cfgValid = true → s.cfg = t.cfg) (hpending : s.pending = t.pending) :
    ∃ u v, exec i s = .next u ∧ exec i t = .next v ∧ SameObservable u v := by
  have answered_alike : (∃ r, exec i s = .next (s.respond r) ∧ exec i t = .next (t.respond r)) →
      ∃ u v, exec i s = .next u ∧ exec i t = .next v ∧ SameObservable u v := by
    rintro ⟨r, hs, ht⟩
    exact ⟨_, _, hs, ht, hvalid, hcfg, hpending, rfl⟩
  by_cases hi : StateFree i
  · obtain ⟨r, hr⟩ := exec_stateFree hi
    exact answered_alike ⟨r, hr s, hr t⟩
  cases i with
  | ldC w => exact ⟨_, _, rfl, rfl, rfl, fun _ => rfl, hpending, rfl⟩
  | encC o =>
    refine answered_alike (execEncC_same_response hvalid ?_)
    rintro (hs | hn)
    · exact hcfg hs ▸ sameDefaults_refl o _
    · exact sameDefaults_of_not_needsCache hn _ _
  | rdC =>
    apply answered_alike
    cases hs : s.cfgValid with
    | true => exact ⟨_, execRdC_of_valid hs, hcfg hs ▸ execRdC_of_valid (hvalid ▸ hs)⟩
    | false => exact ⟨_, execRdC_of_invalid hs, execRdC_of_invalid (hvalid ▸ hs)⟩
  | _ => exact absurd trivial hi

theorem step_keeps_sameObservable {s t : State} (h : SameObservable s t) :
    ∃ u v, step s = .next u ∧ step t = .next v ∧ SameObservable u v := by
  obtain ⟨hvalid, hcfg, hpending, -⟩ := h
  match hp : s.pending with
  | [] => exact ⟨_, _, step_nil hp, step_nil (hpending ▸ hp), hvalid, hcfg, hpending, rfl⟩
  | .resetInput :: rest =>
    exact ⟨_, _, step_reset hp, step_reset (hpending ▸ hp), rfl, fun _ => rfl, rfl, rfl⟩
  | .command c :: rest =>
    rw [step_command hp, step_command (hpending ▸ hp)]
    exact exec_keeps_sameObservable _ hvalid hcfg rfl

/-- A run goes on from where its first step arrives. -/
theorem core_run_succ {s s' : State} (k : Nat) (h : step s = .next s') :
    core.run (k + 1) s = core.run k s' := by
  have hcore : core.step s = .next s' := h
  simp only [Host.Core.run, hcore]

/-- A relation that every step keeps holds after any number of steps. -/
theorem run_keeps_relation {R : State → State → Prop}
    (hstep : ∀ s t, R s t → ∃ u v, step s = .next u ∧ step t = .next v ∧ R u v) (k : Nat) {s t : State}
    (h : R s t) : ∃ u v, core.run k s = .next u ∧ core.run k t = .next v ∧ R u v := by
  induction k generalizing s t with
  | zero => exact ⟨s, t, rfl, rfl, h⟩
  | succ k ih =>
    obtain ⟨s', t', hs, ht, h'⟩ := hstep s t h
    obtain ⟨u, v, hu, hv, huv⟩ := ih h'
    exact ⟨u, v, (core_run_succ k hs).trans hu, (core_run_succ k ht).trans hv, huv⟩

/-- Settles O44, by induction on the number of steps. -/
theorem unspecifiedCacheIsUnobservable : Obligations.UnspecifiedCacheIsUnobservable := by
  unfold Obligations.UnspecifiedCacheIsUnobservable
  intro k s t h
  exact run_keeps_relation (fun _ _ => step_keeps_sameObservable) k h

/-! ### The life of `CFG_VALID` -/

/-- A defaulting `ENC_C` with no cache answers NoCache (rules R11, R131). -/
theorem execEncC_defaulting_without_cache {o : Overrides} {s : State} (hs : s.cfgValid = false)
    (ho : HystLegal o) (hn : ¬ AllCachedOverridden o) :
    execEncC o s = .next (s.respond (.error .noCache)) := by
  have hneeds : needsCache o = true := by
    rw [← Bool.not_eq_false, needsCache_eq_false]
    exact hn
  exact execEncC_of_noCache ((hystIllegal_eq_false o).2 ho) hs hneeds

/-- While `CFG_VALID` is 0, `CFG` does not reach the response (rule R11). -/
theorem exec_invalid_cache_unread (i : Instr) {s : State} (c : Cfg) (hs : s.cfgValid = false) :
    ∃ t u, exec i s = .next t ∧ exec i { s with cfg := c } = .next u ∧ t.rsp = u.rsp := by
  obtain ⟨t, u, ht, hu, -, -, -, hrsp⟩ :=
    exec_keeps_sameObservable i (s := s) (t := { s with cfg := c }) rfl (fun h => by simp [hs] at h) rfl
  exact ⟨t, u, ht, hu, hrsp⟩

/-- Settles O40: the reset value, the load, the one step that clears the bit, and that an invalid cache is not
read. -/
theorem cfgValidRecordsALoad : Obligations.CfgValidRecordsALoad := by
  unfold Obligations.CfgValidRecordsALoad
  refine ⟨rfl, fun w s => ⟨_, rfl, rfl⟩, fun s t hs hstep ht => resetInput_of_cfgValid_cleared hs hstep ht, ?_⟩
  intro i s c hs
  exact ⟨exec_invalid_cache_unread i c hs, execRdC_of_invalid hs,
    fun o ho hn => execEncC_defaulting_without_cache hs ho hn⟩

end Sys2Proof.Machine

/-! SUPPORT. The image of the cache, bit by bit, and its bijection with the record (rule R12). -/

namespace Sys2Proof.Machine

/-- Every field of the image at its place (rule R12). -/
theorem image_fields (c : Cfg) :
    c.image.extractLsb' 9 2 = c.hyst ∧ c.image.getLsbD 8 = c.shdn ∧ c.image.getLsbD 7 = c.critLock ∧
      c.image.getLsbD 6 = c.winLock ∧ c.image.getLsbD 4 = c.alertStat ∧ c.image.getLsbD 3 = c.alertEn ∧
      c.image.getLsbD 2 = c.alertSel ∧ c.image.getLsbD 1 = c.alertPol ∧ c.image.getLsbD 0 = c.alertMode := by
  refine ⟨?_, packConfig_getLsbD .., packConfig_getLsbD .., packConfig_getLsbD .., packConfig_getLsbD ..,
    packConfig_getLsbD .., packConfig_getLsbD .., packConfig_getLsbD .., packConfig_getLsbD ..⟩
  apply BitVec.eq_of_getLsbD_eq
  intro i hi
  rw [BitVec.getLsbD_extractLsb', Cfg.image, packConfig_getLsbD]
  interval_cases i <;> rfl

/-- Bits 15:11 and bit 5 of the image are zero (rule R12). -/
theorem image_and_unused_bits (c : Cfg) : c.image &&& 0xF820#16 = 0#16 := by
  apply BitVec.eq_of_getLsbD_eq
  intro i hi
  rw [BitVec.getLsbD_and, Cfg.image, packConfig_getLsbD]
  interval_cases i <;> simp

/-- The record is in its image, but for the hard-wired field. -/
theorem ofWord_image {c : Cfg} (h : c.intClear = false) : Cfg.ofWord c.image = c := by
  obtain ⟨hyst, shdn, critLock, winLock, alertStat, alertEn, alertSel, alertPol, alertMode⟩ := image_fields c
  simp only [Cfg.ofWord, hyst, shdn, critLock, winLock, alertStat, alertEn, alertSel, alertPol, alertMode, ← h]

/-- The image of a word's fields (rules R12, R121 to R123). -/
theorem image_ofWord (w : Word) : (Cfg.ofWord w).image = w &&& 0x07DF#16 := by
  apply BitVec.eq_of_getLsbD_eq
  intro i hi
  rw [BitVec.getLsbD_and, Cfg.image, packConfig_getLsbD]
  interval_cases i <;> simp [Cfg.ofWord]

/-- Settles O24, by the bits of a packed configuration word. -/
theorem cacheImageIsCanonical : Obligations.CacheImageIsCanonical := by
  unfold Obligations.CacheImageIsCanonical
  refine ⟨fun c => ?_, image_ofWord, fun w s t ht => ?_⟩
  · obtain ⟨hyst, shdn, critLock, winLock, alertStat, alertEn, alertSel, alertPol, alertMode⟩ := image_fields c
    exact ⟨hyst, shdn, critLock, winLock, alertStat, alertEn, alertSel, alertPol, alertMode,
      image_and_unused_bits c, ofWord_image⟩
  · cases ht
    exact ⟨image_ofWord w, execRdC_of_valid rfl⟩

end Sys2Proof.Machine

/-! SUPPORT. The record model against the image model: operands, response words, and each codec's closed form. -/

namespace Sys2Proof.Machine

/-! ### Operands of a command word (rule R66) -/

theorem getElem_argField (c : Command) (i : Nat) (hi : i < 32) : (argField c)[i] = c.getLsbD i := by
  simp [argField]

theorem layoutW_argField (c : Command) : layoutW (argField c) = c.setWidth 16 := by
  apply BitVec.eq_of_getLsbD_eq
  intro i hi
  simp [layoutW, argField, hi]

theorem layoutQ_argField (c : Command) : layoutQ (argField c) = c.setWidth 16 := layoutW_argField c

theorem layoutB_argField_toNat (c : Command) : (layoutB (argField c)).toNat = c.toNat % 256 := by
  simp [layoutB, argField, BitVec.extractLsb'_toNat]

/-! ### Response words (rule R70) -/

theorem wire_ok (data : Word) (warn : Bool) : (Response.ok data warn).wire = wireOk warn data := by
  cases warn <;> simp [Response.wire, wireOk, bitAt]

/-! ### `DEC_T` and `DEC_F` -/

/-- The temperature of rule R85 is the value of the low 13 bits. -/
theorem tempSixteenths_eq_toInt (w : Word) : tempSixteenths w = (w.setWidth 13).toInt := by
  have hsign : (tempSign w).toNat = w.toNat / 4096 % 2 := by
    rw [tempSign, BitVec.getLsbD, Nat.toNat_testBit]
  rw [tempSixteenths, tempIntegral_eq, tempFraction_eq, hsign, BitVec.toInt_eq_toNat_cond, BitVec.toNat_setWidth]
  split <;> omega

theorem s16_tempSixteenths (w : Word) : s16 (tempSixteenths w) = (w.setWidth 13).signExtend 16 := by
  rw [tempSixteenths_eq_toInt, s16, BitVec.signExtend]

/-- The flags are the word's bits 15:13 (rule R90). -/
theorem alertFlags_eq_shift (w : Word) : alertFlags w = w >>> 13 := by
  apply BitVec.eq_of_getLsbD_eq
  intro i hi
  interval_cases i <;> simp [alertFlags]

/-! ### `ENC_L` (rules R95 to R99) -/

theorem limitWord_toNat_of_nonneg {n : Int} (h0 : 0 ≤ n) (h1 : n ≤ 2032) :
    ((limitWord n).toNat : Int) = n - n % 4 := by
  have hs : limitSign n = 0 := by simp [limitSign]; omega
  have hi : (limitIntegral n : Int) = n / 16 := by
    rw [limitIntegral, if_neg (by omega), Int.tdiv_eq_ediv_of_nonneg h0]
    omega
  have hf : (limitFraction n : Int) = n % 16 / 4 := by
    rw [limitFraction, hi, Int.tdiv_eq_ediv_of_nonneg (by omega)]
    omega
  rw [limitWord_toNat]
  omega

theorem limitWord_toNat_of_neg {m : Nat} (h0 : 0 < m) (h1 : m ≤ 2048) :
    (limitWord (-m)).toNat =
      4096 + 16 * (if m / 16 = 0 then 255 else 256 - m / 16) + 4 * ((4 - m % 16 / 4) % 4) := by
  have hs : limitSign (-m) = 1 := by simp [limitSign]; omega
  have hi : limitIntegral (-m) = if m / 16 = 0 then 255 else 256 - m / 16 := by
    by_cases ha : m / 16 = 0
    · rw [limitIntegral, if_pos (by omega), if_pos ha]
    · rw [limitIntegral, if_neg (by omega), if_neg ha, Int.neg_tdiv, Int.tdiv_eq_ediv_of_nonneg (by omega)]
      omega
  have hf : limitFraction (-m) = (4 - m % 16 / 4) % 4 := by
    have hneg : -(m : Int) - 16 * (limitIntegral (-m) : Int) = -((m : Int) + 16 * limitIntegral (-m)) := by omega
    rw [limitFraction, hneg, Int.neg_tdiv, Int.tdiv_eq_ediv_of_nonneg (by omega), hi]
    split <;> omega
  rw [limitWord_toNat, hs, hi, hf]

theorem toNat_and_0FFC (q : Word) : (q &&& 0x0FFC#16).toNat = q.toNat / 4 % 1024 * 4 := by
  have hbits : q &&& 0x0FFC#16 = (q.extractLsb' 2 10).setWidth 16 <<< 2 := by
    apply BitVec.eq_of_getLsbD_eq
    intro i hi
    interval_cases i <;> simp
  rw [hbits]
  simp [BitVec.extractLsb'_toNat, Nat.shiftRight_eq_div_pow, Nat.shiftLeft_eq]
  omega

/-- The sign, integral and fraction fields do not overlap, so their disjunction is their sum (rule R98). -/
theorem toNat_or_limit_fields {i f : Nat} (hi : i < 256) (hf : f < 4) :
    (0x1000#16 ||| BitVec.ofNat 16 (i * 16) ||| BitVec.ofNat 16 (f * 4)).toNat = 4096 + 16 * i + 4 * f := by
  have hint : 4096 ||| i * 16 = 16 * (256 + i) := by
    rw [← Nat.two_pow_add_eq_or_of_lt (i := 12) (by omega) 1]
    omega
  have hfrac : 16 * (256 + i) ||| f * 4 = 16 * (256 + i) + f * 4 :=
    (Nat.two_pow_add_eq_or_of_lt (i := 4) (by omega) (256 + i)).symm
  simp only [BitVec.toNat_or, BitVec.toNat_ofNat, Nat.mod_eq_of_lt (show i * 16 < 2 ^ 16 by omega),
    Nat.mod_eq_of_lt (show f * 4 < 2 ^ 16 by omega), Nat.mod_eq_of_lt (show 4096 < 2 ^ 16 by omega), hint, hfrac]
  omega

theorem limitWord_closed_form {q : Word} (h : -2048 ≤ q.toInt ∧ q.toInt ≤ 2032) :
    limitWord q.toInt =
      if 0 ≤ q.toInt then q &&& 0x0FFC#16
      else
        0x1000#16 |||
          BitVec.ofNat 16 (if (-q.toInt).toNat / 16 = 0 then 0xFF0 else (256 - (-q.toInt).toNat / 16) * 16) |||
          BitVec.ofNat 16 ((4 - (-q.toInt).toNat % 16 / 4) % 4 * 4) := by
  obtain ⟨hlow, hhigh⟩ := h
  apply BitVec.eq_of_toNat_eq
  by_cases h0 : 0 ≤ q.toInt
  · have hq : q.toInt = q.toNat := by
      rw [BitVec.toInt_eq_toNat_cond] at h0 ⊢
      split <;> omega
    have hw := limitWord_toNat_of_nonneg h0 hhigh
    rw [if_pos h0, toNat_and_0FFC]
    omega
  · obtain ⟨m, hm⟩ := Int.eq_ofNat_of_zero_le (show 0 ≤ -q.toInt by omega)
    have hq : q.toInt = -m := by omega
    have hi : (if m / 16 = 0 then 0xFF0 else (256 - m / 16) * 16) =
        (if m / 16 = 0 then 255 else 256 - m / 16) * 16 := by split <;> rfl
    rw [if_neg h0, hm, hq, limitWord_toNat_of_neg (by omega) (by omega), Int.toNat_natCast, hi,
      toNat_or_limit_fields (by split <;> omega) (by omega)]

/-! ### `DEC_R` and `ENC_R` -/

theorem layoutB_setWidth_of_level {c : Command} (h : (layoutB (argField c)).toNat ≤ 3) :
    (layoutB (argField c)).setWidth 16 = (c.extractLsb' 0 2).setWidth 16 := by
  apply BitVec.eq_of_toNat_eq
  have hb := layoutB_argField_toNat c
  simp [BitVec.extractLsb'_toNat]
  omega

theorem layoutB_level_iff (c : Command) : (layoutB (argField c)).toNat ≤ 3 ↔ c.extractLsb' 2 6 = 0#6 := by
  rw [← BitVec.toNat_inj, layoutB_argField_toNat, BitVec.extractLsb'_toNat, Nat.shiftRight_eq_div_pow]
  simp
  omega

/-! ### `ENC_C` -/

theorem getElem_wireMask (enable : Bool) (positions : Word) (i : Nat) (hi : i < 16) :
    (wireMask enable positions)[i] = (enable && positions[i]) := by
  cases enable <;> simp [wireMask]

theorem pick_override_bool (enable value default : Bool) :
    pick (override enable value) default = (value && enable || default && !enable) := by
  cases enable <;> simp [pick, override]

theorem getElem_pick_override_level (enable : Bool) (value : Byte) (default : BitVec 2) (i : Nat) (hi : i < 2) :
    (pick ((override enable value).map (BitVec.extractLsb' 0 2)) default)[i] =
      (value[i] && enable || default[i] && !enable) := by
  cases enable <;> simp [pick, override, BitVec.getLsbD_eq_getElem (show i < 8 by omega)]

theorem encodeConfig_layoutO (c : Command) (cfg : Cfg) :
    encodeConfig (layoutO (argField c)) cfg =
      (wireGiven c &&& wireOverridden c) ||| (cfg.image &&& 0x07CF#16 &&& ~~~wireOverridden c) := by
  apply BitVec.eq_of_getLsbD_eq
  intro i hi
  simp only [encodeConfig, Cfg.image, BitVec.getLsbD_or, BitVec.getLsbD_and, packConfig_getLsbD]
  interval_cases i <;>
    simp [layoutO, pick_override_bool, getElem_pick_override_level, getElem_argField, wireGiven, wireOverridden,
      getElem_wireMask]

theorem hystIllegal_layoutO (c : Command) :
    hystIllegal (layoutO (argField c)) = true ↔ c.getLsbD 0 = true ∧ c.extractLsb' 18 6 ≠ 0#6 := by
  have hlevel : isLevel ((argField c).extractLsb' 16 8) = true ↔ c.extractLsb' 18 6 = 0#6 := by
    rw [isLevel_iff, ← BitVec.toNat_inj, argField]
    simp [BitVec.extractLsb'_toNat, Nat.shiftRight_eq_div_pow]
    omega
  have hhyst : (layoutO (argField c)).hyst = override (c.getLsbD 0) ((argField c).extractLsb' 16 8) := by
    simp [layoutO, getElem_argField]
  rw [hystIllegal, hhyst]
  cases c.getLsbD 0 <;> simp [override, ← hlevel]

theorem en_layoutO (c : Command) : (layoutO (argField c)).en = c.extractLsb' 0 9 := by
  have isSome_override : ∀ {α : Type} (enable : Bool) (v : α), (override enable v).isSome = enable := by
    intro α enable v
    cases enable <;> rfl
  apply BitVec.eq_of_getLsbD_eq
  intro i hi
  interval_cases i <;> simp [Overrides.en, layoutO, isSome_override, getElem_argField]

theorem needsCache_layoutO (c : Command) :
    needsCache (layoutO (argField c)) = true ↔ c &&& 0x1EF#36 ≠ 0x1EF#36 := by
  have hbits : c &&& 0x1EF#36 = (c.extractLsb' 0 9 &&& 0x1EF#9).setWidth 36 := by
    apply BitVec.eq_of_getLsbD_eq
    intro i hi
    interval_cases i <;> simp
  rw [needsCache, en_layoutO, bne_iff_ne, hbits]
  refine not_congr ⟨fun h => by rw [h]; rfl, fun h => ?_⟩
  simpa using congrArg (BitVec.setWidth 9) h

/-! ### The simulation, command by command -/

/-- The outcome `x` of a command presented to `s` has this response word and this image, and takes nothing else
off the port: what the image model says of a command. -/
def Matches (x : Host.Outcome State Fault Refusal) (s : State) (word : ResponseWord) (m : WireState) : Prop :=
  ∃ t r, x = .next t ∧ t.rsp = some r ∧ r.wire = word ∧ t.wireState = m ∧ t.pending = s.pending

/-- A command that changes only the response port matches when its response word does. -/
theorem matches_respond {s : State} {r : Response} {word : ResponseWord} (h : r.wire = word) :
    Matches (.next (s.respond r)) s word s.wireState :=
  ⟨_, r, rfl, rfl, h, rfl, rfl⟩

theorem exec_decT_matches (w : Word) (s : State) :
    Matches (exec (.decT w) s) s (wireDecT w) s.wireState :=
  matches_respond (by rw [wire_ok, s16_tempSixteenths, wireDecT])

theorem exec_decF_matches (w : Word) (s : State) :
    Matches (exec (.decF w) s) s (wireOk false (w >>> 13)) s.wireState :=
  matches_respond (by rw [wire_ok, alertFlags_eq_shift])

theorem exec_encL_matches (q : Word) (s : State) :
    Matches (exec (.encL q) s) s (wireEncL q) s.wireState := by
  by_cases h : -2048 ≤ q.toInt ∧ q.toInt ≤ 2032
  · have hwarn : wRange q.toInt = decide (q.toInt < -640 ∨ 2000 < q.toInt) := by simp [wRange]
    rw [exec, execEncL_of_legal h, wireEncL, if_neg (by omega), ← limitWord_closed_form h, ← hwarn]
    exact matches_respond (wire_ok _ _)
  · rw [exec, execEncL_of_illegal h, wireEncL, if_pos (by omega)]
    exact matches_respond rfl

theorem passLevel_matches (c : Command) (s : State) :
    Matches (passLevel (layoutB (argField c)) s) s (wireLevel c) s.wireState := by
  by_cases h : (layoutB (argField c)).toNat ≤ 3
  · rw [passLevel_of_level h, wireLevel, if_pos ((layoutB_level_iff c).1 h), ← layoutB_setWidth_of_level h]
    exact matches_respond (wire_ok _ _)
  · rw [passLevel_of_not_level (by omega), wireLevel, if_neg (mt (layoutB_level_iff c).2 h)]
    exact matches_respond rfl

theorem exec_decC_matches (w : Word) (s : State) :
    Matches (exec (.decC w) s) s (wireOk false (w &&& 0x07DF#16)) s.wireState :=
  matches_respond (by rw [wire_ok, image_ofWord])

theorem exec_ldC_matches (w : Word) (s : State) :
    Matches (exec (.ldC w) s) s (wireOk false (w &&& 0x07DF#16)) ⟨true, w &&& 0x07DF#16⟩ :=
  ⟨_, _, rfl, rfl, by rw [wire_ok, image_ofWord], by simp [State.wireState, image_ofWord], rfl⟩

theorem exec_encC_matches (c : Command) (s : State) :
    Matches (exec (.encC (layoutO (argField c))) s) s (wireEncC c s.wireState) s.wireState := by
  have hill := hystIllegal_layoutO c
  have hneeds := needsCache_layoutO c
  rcases execEncC_cases (layoutO (argField c)) s with ⟨ho, h⟩ | ⟨ho, hs, hn, h⟩ | ⟨ho, hc, h⟩
  · rw [exec, h, wireEncC, if_pos (hill.1 ho)]
    exact matches_respond rfl
  · rw [exec, h, wireEncC, if_neg (hill.not.1 (Bool.eq_false_iff.1 ho)), if_pos ⟨hs, hneeds.1 hn⟩]
    exact matches_respond rfl
  · have hcache : ¬(s.wireState.valid = false ∧ c &&& 0x1EF#36 ≠ 0x1EF#36) := by
      rw [← hneeds]
      rcases hc with hc | hc <;> simp [State.wireState, hc]
    rw [exec, h, wireEncC, if_neg (hill.not.1 (Bool.eq_false_iff.1 ho)), if_neg hcache, encodeConfig_layoutO]
    exact matches_respond (wire_ok _ _)

theorem exec_rdC_matches (s : State) :
    Matches (exec .rdC s) s (if s.wireState.valid then wireOk false s.wireState.img else 0x40000#20)
      s.wireState := by
  rcases execRdC_cases s with ⟨hs, h⟩ | ⟨hs, h⟩
  · rw [exec, h, State.wireState, if_pos hs]
    exact matches_respond (wire_ok _ _)
  · rw [exec, h, State.wireState, if_neg (by simp [hs])]
    exact matches_respond rfl

/-- Every command word matches the image model, by the sixteen operation codes. -/
theorem exec_decode_matches (c : Command) (s : State) :
    Matches (exec (decode c) s) s (wireResponse c s.wireState) (wireNext c s.wireState) := by
  have hnext : wireNext c s.wireState =
      if (c.extractLsb' 32 4).toNat = 6 then ⟨true, c.setWidth 16 &&& 0x07DF#16⟩ else s.wireState := by
    simp [wireNext, ← BitVec.toNat_inj]
  rw [hnext, decode_by_code, wireResponse, layoutW_argField, layoutQ_argField]
  match (c.extractLsb' 32 4).toNat with
  | 0 => exact exec_decT_matches _ s
  | 1 => exact exec_decF_matches _ s
  | 2 => exact exec_encL_matches _ s
  | 3 | 4 => exact passLevel_matches c s
  | 5 => exact exec_decC_matches _ s
  | 6 => exact exec_ldC_matches _ s
  | 7 => exact exec_encC_matches c s
  | 8 => exact exec_rdC_matches s
  | 9 | 10 | 11 | 12 | 13 | 14 => exact matches_respond rfl
  | op + 15 =>
    rw [if_neg (show op + 15 ≠ 6 by omega)]
    exact matches_respond rfl

/-- Settles O45, by the simulation of each command. -/
theorem recordModelRefinesImageModel : Obligations.RecordModelRefinesImageModel := by
  unfold Obligations.RecordModelRefinesImageModel
  intro c s
  exact exec_decode_matches c s

end Sys2Proof.Machine

/-! SUPPORT. The decoder gives back every instruction the encoder wrote (rules R65, R66, R69, R73). -/

namespace Sys2Proof

@[simp] theorem layoutW_wordArg (w : Word) : layoutW (wordArg w) = w := by
  apply BitVec.eq_of_getLsbD_eq
  intro i hi
  simp [layoutW, wordArg, hi]
  omega

@[simp] theorem layoutQ_wordArg (q : Word) : layoutQ (wordArg q) = q := layoutW_wordArg q

@[simp] theorem layoutB_byteArg (b : Byte) : layoutB (byteArg b) = b := by
  apply BitVec.eq_of_getLsbD_eq
  intro i hi
  simp [layoutB, byteArg, hi]
  omega

/-- An enable bit and a value, however the value of an absent override is filled in (rule R75). -/
theorem override_isSome_getD {α : Type} (v : Option α) (fill : α) : override v.isSome (v.getD fill) = v := by
  cases v <;> rfl

/-- The bits of an override operand, `{ov_bool, ov_hyst, 0000000, ov_en}` (rule R66). -/
theorem getElem_overridesArg (o : Overrides) (i : Nat) (hi : i < 32) :
    o.arg[i] =
      if i < 9 then o.en.getLsbD i
      else if i < 16 then false
      else if i < 24 then (o.hyst.getD 0#8).getLsbD (i - 16)
      else o.bools.getLsbD (i - 24) := by
  interval_cases i <;> simp [Overrides.arg]

@[simp] theorem layoutO_arg (o : Overrides) : layoutO o.arg = o := by
  have hlevel : o.arg.extractLsb' 16 8 = o.hyst.getD 0#8 := by
    apply BitVec.eq_of_getLsbD_eq
    intro i hi
    interval_cases i <;> simp [getElem_overridesArg]
  simp [layoutO, hlevel, getElem_overridesArg, Overrides.en, Overrides.bools, override_isSome_getD]

/-- The decoder undoes the encoder, by the instruction's operation code and layout. -/
theorem decode_encode (i : Instr) : decode (encode i) = i := by
  rw [decode_by_code]
  cases i <;> simp [encode]

end Sys2Proof

/-! SUPPORT. The response port is not read, and the step that runs nothing. -/

namespace Sys2Proof.Machine

/-- No instruction reads what the command before it answered (rule R23). -/
theorem exec_respond (i : Instr) (s : State) (q : Response) : exec i (s.respond q) = exec i s := by
  cases i <;> rfl

/-- Settles O39: of what the command changed, it reads the cache of an `LD_C` only, and loads it whole. -/
theorem repeatedCommandIsIdempotent : Obligations.RepeatedCommandIsIdempotent := by
  unfold Obligations.RepeatedCommandIsIdempotent
  intro i s
  rcases exec_cases i s with ⟨r, h⟩ | ⟨w, rfl, h⟩
  · exact ⟨_, h, (exec_respond i s r).trans h⟩
  · exact ⟨_, h, rfl⟩

/-- Settles O7: the step that accepts nothing idles. -/
theorem stepWithNothingPresentedIdles : Obligations.StepWithNothingPresentedIdles := by
  unfold Obligations.StepWithNothingPresentedIdles
  intro s hp
  exact step_nil hp

/-! ### A temperature word read at a coarser level -/

/-- `DEC_T` answers the temperature as a number, without wrapping (rules R85, R87). -/
theorem toInt_decT (w : Word) : (s16 (tempSixteenths w)).toInt = tempSixteenths w := by
  rw [s16_tempSixteenths, BitVec.toInt_signExtend_of_le (by decide), tempSixteenths_eq_toInt]

/-- All but the fraction of a temperature word is a multiple of 16 sixteenths, so a step of at most 16 that divides
the word divides the temperature. -/
theorem dvd_tempSixteenths {step : Nat} (hstep : step ∣ 16) {w : Word} (hw : step ∣ w.toNat) :
    (step : Int) ∣ tempSixteenths w := by
  have hfrac : step ∣ w.toNat % 16 := (Nat.dvd_mod_iff hstep).2 hw
  have hwhole : tempSixteenths w =
      16 * ((tempIntegral w : Int) - 256 * ((tempSign w).toNat : Int)) + ((w.toNat % 16 : Nat) : Int) := by
    rw [tempSixteenths, tempFraction_eq]
    omega
  rw [hwhole]
  exact Int.dvd_add (Dvd.dvd.mul_right (Int.natCast_dvd_natCast.2 hstep) _) (Int.natCast_dvd_natCast.2 hfrac)

/-- Settles O13: the step of every level divides 16, so it divides the temperature when the word's low bits are
zero. -/
theorem decTDecodesEveryResolution : Obligations.DecTDecodesEveryResolution := by
  unfold Obligations.DecTDecodesEveryResolution
  intro level w s hw
  have hstep : 2 ^ (3 - level.toNat) ∣ 16 := Nat.pow_dvd_pow 2 (show 3 - level.toNat ≤ 4 by omega)
  refine ⟨_, rfl, s16_tempSixteenths w, ?_⟩
  rw [toInt_decT]
  exact Int.emod_eq_zero_of_dvd (by exact_mod_cast dvd_tempSixteenths hstep (Nat.dvd_of_mod_eq_zero hw))

end Sys2Proof.Machine

/-! SUPPORT. The rules of the session's primitives: what a block command, a transfer, a reload and a diagnostic do
to each field of the session. -/

namespace Sys2Proof.Machine

open Sys2Proof.Safety

/-! ### Diagnostics -/

section
variable (h : Session) (b : Bool) (d : Diagnostic)

@[simp] theorem Session.diagnoseIf_block : (h.diagnoseIf b d).block = h.block := by cases b <;> rfl
@[simp] theorem Session.diagnoseIf_replies : (h.diagnoseIf b d).replies = h.replies := by cases b <;> rfl
@[simp] theorem Session.diagnoseIf_transfers : (h.diagnoseIf b d).transfers = h.transfers := by cases b <;> rfl
@[simp] theorem Session.diagnoseIf_diagnostics :
    (h.diagnoseIf b d).diagnostics = h.diagnostics ++ if b then [d] else [] := by
  cases b <;> simp [Session.diagnoseIf, Session.diagnose]

end

/-! ### Block commands -/

/-- The session after a block command that changed only the response port. -/
def Session.answered (h : Session) (r : Response) : Session := { h with block := h.block.respond r }

@[simp] theorem Session.answered_block (h : Session) (r : Response) :
    (h.answered r).block = h.block.respond r := rfl
@[simp] theorem Session.answered_replies (h : Session) (r : Response) : (h.answered r).replies = h.replies := rfl
@[simp] theorem Session.answered_transfers (h : Session) (r : Response) :
    (h.answered r).transfers = h.transfers := rfl
@[simp] theorem Session.answered_diagnostics (h : Session) (r : Response) :
    (h.answered r).diagnostics = h.diagnostics := rfl

/-- A command that answers `OK` and changes only the response port. -/
theorem Session.issue_answered {h : Session} {i : Instr} {d : Word} {w : Bool}
    (e : exec i h.block = .next (h.block.respond (.ok d w))) : h.issue i = .done (d, w) (h.answered (.ok d w)) :=
  Session.issue_ok (decode_encode i) e rfl

/-- However a command ends, it makes no transfer (rule R30). -/
theorem Session.issue_transfers (h : Session) (i : Instr) : (h.issue i).session.transfers = h.transfers := by
  obtain ⟨t, r, ht, hr, -⟩ := exec_legal_response i h.block
  cases r with
  | ok d w => rw [Session.issue_ok (decode_encode i) ht hr]; rfl
  | error x => rw [Session.issue_error (decode_encode i) ht hr]; rfl

/-! ### Transfers -/

/-- The session after a transfer that took a reply. -/
def Session.moved (h : Session) (t : Transfer) (rest : List BusReply) : Session :=
  { h with replies := rest, transfers := h.transfers ++ [t] }

section
variable (h : Session) (t : Transfer) (rest : List BusReply)

@[simp] theorem Session.moved_block : (h.moved t rest).block = h.block := rfl
@[simp] theorem Session.moved_replies : (h.moved t rest).replies = rest := rfl
@[simp] theorem Session.moved_transfers : (h.moved t rest).transfers = h.transfers ++ [t] := rfl
@[simp] theorem Session.moved_diagnostics : (h.moved t rest).diagnostics = h.diagnostics := rfl

end

/-- The read of a whole register (rule R34). -/
def readOf (reg : SensorReg) : Transfer := .read Config.deviceAddress (regOffset reg) (regBytes reg)

/-- The write of these bytes to a register. -/
def writeOf (reg : SensorReg) (bs : List Byte) : Transfer := .write Config.deviceAddress (regOffset reg) bs

/-- A write the bus failed (rule R162). -/
theorem Session.busWrite_transportError {h : Session} {rest : List BusReply} (reg : SensorReg) (bs : List Byte)
    (hr : h.replies = .transportError :: rest) :
    h.busWrite reg bs = .failed .transportError (h.moved (writeOf reg bs) rest) := by
  simp only [Session.busWrite, Session.transfer_cons _ hr, SessionOutcome.andThen_done]
  rfl

/-- A read the bus failed (rule R162). -/
theorem Session.busRead_transportError {h : Session} {rest : List BusReply} (reg : SensorReg)
    (hr : h.replies = .transportError :: rest) :
    h.busRead reg = .failed .transportError (h.moved (readOf reg) rest) := by
  simp only [Session.busRead, Session.transfer_cons _ hr, SessionOutcome.andThen_done]
  rfl

/-- A write the bus carried out and the read that came back after it. -/
theorem Session.busWrite_andThen_busRead {α : Type} {h : Session} {rest : List BusReply} {reg : SensorReg}
    {bs r : List Byte} {f : List Byte → Session → SessionOutcome α}
    (hr : h.replies = .written :: .bytes r :: rest) (hlen : r.length = regBytes reg) :
    ((h.busWrite reg bs).andThen fun _ g => (g.busRead reg).andThen f) =
      f r ((h.moved (writeOf reg bs) (.bytes r :: rest)).moved (readOf reg) rest) := by
  rw [Session.busWrite_written reg bs hr, SessionOutcome.andThen_done, Session.busRead_bytes reg rfl hlen,
    SessionOutcome.andThen_done]
  rfl

/-! ### The reload of the cache (rules R49, R183) -/

/-- The block after an `LD_C`. -/
def State.loaded (s : State) (w : Word) : State :=
  (s.loadCache (Cfg.ofWord w)).respond (.ok (Cfg.ofWord w).image false)

theorem State.loaded_cacheHolds (s : State) (w : Word) : CacheHolds (s.loaded w) w := ⟨rfl, rfl⟩

/-- The session after a reload from the bytes the register reads. -/
def Session.reloaded (h : Session) (w : Word) (rest : List BusReply) : Session :=
  { h.moved (readOf .config) rest with block := h.block.loaded w }

/-- A reload whose read came back: the cache is what the register holds. -/
theorem Session.reload_bytes {h : Session} {rest : List BusReply} {c0 c1 : Byte}
    (hr : h.replies = .bytes [c0, c1] :: rest) :
    h.reload = .done (Cfg.ofWord (c0 ++ c1)) (h.reloaded (c0 ++ c1) rest) := by
  have hload : ∀ g : Session, g.issue (.ldC (c0 ++ c1)) =
      .done ((Cfg.ofWord (c0 ++ c1)).image, false) { g with block := g.block.loaded (c0 ++ c1) } :=
    fun g => Session.issue_ok (decode_encode _) rfl rfl
  rw [Session.reload, Session.readWord_bytes .config hr rfl, SessionOutcome.andThen_done, hload,
    SessionOutcome.andThen_done, ofWord_image rfl]
  rfl

/-- A reload whose read failed: the cache is untouched (rule R162). -/
theorem Session.reload_transportError {h : Session} {rest : List BusReply}
    (hr : h.replies = .transportError :: rest) :
    h.reload = .failed .transportError (h.moved (readOf .config) rest) := by
  rw [Session.reload, Session.readWord, Session.busRead_transportError .config hr]
  rfl

end Sys2Proof.Machine

/-! SUPPORT. `APPLY_CFG` (rule R166): the reload, the Divergence, and a failed transfer. -/

namespace Sys2Proof.Machine

open Sys2Proof.Safety

/-! ### The encode -/

theorem exec_encC_of_canEncode {o : Overrides} {s : State} (h : CanEncode o s) :
    exec (.encC o) s = .next (s.respond (.ok (encodeConfig o s.cfg) false)) := by
  obtain ⟨hlegal, hfields⟩ := h
  exact execEncC_of_encodes ((hystIllegal_eq_false o).2 hlegal) (hfields.imp_right (needsCache_eq_false o).2)

/-- The session after the encode of `APPLY_CFG`, when there is a word. -/
def Session.encoded (h : Session) (o : Overrides) : Session :=
  h.answered (.ok (encodeConfig o h.block.cfg) false)

/-- After a successful encode `APPLY_CFG` is the write, the reload and the comparison. -/
theorem Session.applyCfg_of_canEncode {h : Session} {o : Overrides} (ho : CanEncode o h.block) :
    h.applyCfg o =
      ((h.encoded o).busWrite .config (bytesOfWord (encodeConfig o h.block.cfg))).andThen fun _ g =>
        g.reload.andThen fun cfg g => .done cfg (g.diagnoseIf (diverges o cfg) .configDivergence) := by
  rw [Session.applyCfg, Session.issue_answered (exec_encC_of_canEncode ho)]
  rfl

/-- `APPLY_CFG` with a write and a read-back that the bus carried out. -/
theorem Session.applyCfg_done {h : Session} {o : Overrides} {c0 c1 : Byte} {rest : List BusReply}
    (ho : CanEncode o h.block) (hr : h.replies = .written :: .bytes [c0, c1] :: rest) :
    h.applyCfg o = .done (Cfg.ofWord (c0 ++ c1))
      ((((h.encoded o).moved (writeOf .config (bytesOfWord (encodeConfig o h.block.cfg)))
        (.bytes [c0, c1] :: rest)).reloaded (c0 ++ c1) rest).diagnoseIf
          (diverges o (Cfg.ofWord (c0 ++ c1))) .configDivergence) := by
  have hsent : (h.encoded o).replies = .written :: .bytes [c0, c1] :: rest := hr
  rw [Session.applyCfg_of_canEncode ho, Session.busWrite_written .config _ hsent, SessionOutcome.andThen_done,
    Session.reload_bytes rfl]
  rfl

/-! ### The comparison -/

theorem differs_eq_false {α : Type} [DecidableEq α] (requested : Option α) (actual : α) :
    differs requested actual = false ↔ ∀ v, requested = some v → v = actual := by
  cases requested <;> simp [differs]

/-- No Divergence exactly when every requested field but `int_clear` has its requested value (rules R166, R190). -/
theorem diverges_eq_false (o : Overrides) (c : Cfg) :
    diverges o c = false ↔
      (∀ v, o.hyst = some v → v = c.hyst.setWidth 8) ∧ (∀ v, o.shdn = some v → v = c.shdn) ∧
        (∀ v, o.critLock = some v → v = c.critLock) ∧ (∀ v, o.winLock = some v → v = c.winLock) ∧
        (∀ v, o.alertEn = some v → v = c.alertEn) ∧ (∀ v, o.alertSel = some v → v = c.alertSel) ∧
        (∀ v, o.alertPol = some v → v = c.alertPol) ∧ (∀ v, o.alertMode = some v → v = c.alertMode) := by
  simp only [diverges, Bool.or_eq_false_iff, differs_eq_false, and_assoc]

/-- A diagnostic emitted exactly when a test is not false. -/
theorem diagnostic_unless {b : Bool} {p : Prop} [Decidable p] (hb : b = false ↔ p) (d : Diagnostic) :
    (if b = true then [d] else []) = if p then [] else [d] := by
  cases b with
  | false => rw [if_neg (by decide), if_pos (hb.1 rfl)]
  | true => rw [if_pos rfl, if_neg (mt hb.2 (by decide))]

/-- Settles O49, by the encode, the write and the reload, each with its own rule. -/
theorem applyCfgReloadsFromTheRegister : Obligations.ApplyCfgReloadsFromTheRegister := by
  unfold Obligations.ApplyCfgReloadsFromTheRegister
  intro h o c0 c1 rest ho hr
  refine ⟨_, _, exec_encC_of_canEncode ho, Session.applyCfg_done ho hr, ?_, ?_, ?_, ?_, ?_⟩
  · rw [Session.diagnoseIf_block]
    exact State.loaded_cacheHolds _ _
  · rw [Session.diagnoseIf_replies]
    rfl
  · rw [Session.diagnoseIf_block]
    rfl
  · rw [Session.diagnoseIf_transfers]
    exact List.append_assoc ..
  · rw [Session.diagnoseIf_diagnostics, diagnostic_unless (diverges_eq_false o _)]
    rfl

/-- Settles O50: the latch keeps the read-back's lock bit, so the reloaded cache shows the lock and differs from the
request. -/
theorem refusedUnlockIsADivergence : Obligations.RefusedUnlockIsADivergence := by
  unfold Obligations.RefusedUnlockIsADivergence
  intro h before c0 c1 rest hcache hlocked hlatch hr
  obtain ⟨hvalid, -⟩ := hcache
  obtain ⟨hcritical, -⟩ := hlatch
  have hstill : (c0 ++ c1).getLsbD 7 = true := hcritical hlocked
  have ho : CanEncode { noOverrides with critLock := some false } h.block := ⟨fun v hv => (nomatch hv), .inl hvalid⟩
  obtain ⟨_, g, -, hdone, ⟨-, hcfg⟩, -, -, -, hdiag⟩ := applyCfgReloadsFromTheRegister h _ c0 c1 rest ho hr
  refine ⟨_, g, hdone, hstill, hcfg ▸ hstill, ?_⟩
  rw [hdiag, if_neg]
  rintro ⟨-, -, hunlocked, -⟩
  exact absurd (hunlocked false rfl) (by simp [hstill])

/-! ### A failed transfer -/

/-- Settles O55: whichever transfer fails, what follows it is not run. -/
theorem transportErrorIsPropagated : Obligations.TransportErrorIsPropagated := by
  unfold Obligations.TransportErrorIsPropagated
  intro h o rest ho
  rw [Session.applyCfg_of_canEncode ho]
  constructor <;> intro hr
  · have hsent : (h.encoded o).replies = .transportError :: rest := hr
    rw [Session.busWrite_transportError .config _ hsent]
    exact ⟨_, rfl, rfl, rfl, rfl⟩
  · have hsent : (h.encoded o).replies = .written :: .transportError :: rest := hr
    rw [Session.busWrite_written .config _ hsent, SessionOutcome.andThen_done, Session.reload_transportError rfl]
    exact ⟨_, rfl, rfl, rfl, rfl⟩

end Sys2Proof.Machine

/-! SUPPORT. `SET_LIMIT`, `SET_RES`, `READ_TEMP` and `READ_FLAGS` (rules R167 to R169). -/

namespace Sys2Proof.Machine

open Sys2Proof.Safety

/-! ### `SET_LIMIT` -/

/-- Two bytes in bus order are a word's bytes exactly when their append is the word (rule R33). -/
theorem eq_bytesOfWord_iff (b0 b1 : Byte) (w : Word) : [b0, b1] = bytesOfWord w ↔ b0 ++ b1 = w := by
  rw [← wordOfBytes_eq_append, wordOfBytes]
  constructor
  · intro h
    obtain ⟨rfl, rfl⟩ : b0 = w.extractLsb' 8 8 ∧ b1 = w.extractLsb' 0 8 := by simpa [bytesOfWord] using h
    apply BitVec.eq_of_getLsbD_eq
    intro i hi
    interval_cases i <;> simp
  · rintro rfl
    have hfirst : (concat 16 b0 b1).extractLsb' 8 8 = b0 := by
      apply BitVec.eq_of_getLsbD_eq
      intro i hi
      interval_cases i <;> simp
    have hsecond : (concat 16 b0 b1).extractLsb' 0 8 = b1 := by
      apply BitVec.eq_of_getLsbD_eq
      intro i hi
      interval_cases i <;> simp
    rw [bytesOfWord, hfirst, hsecond]

/-- The session after `SET_LIMIT`'s encode and its warning. -/
def Session.limitEncoded (h : Session) (which : LimitKind) (data : Word) (warn : Bool) : Session :=
  (h.answered (.ok data warn)).diagnoseIf warn (.limitUnreachable which)

/-- `SET_LIMIT` of a legal limit, with a write and a read-back that the bus carried out. -/
theorem Session.setLimit_done {h : Session} {which : LimitKind} {t data : Word} {warn : Bool} {r0 r1 : Byte}
    {rest : List BusReply} (he : exec (.encL t) h.block = .next (h.block.respond (.ok data warn)))
    (hr : h.replies = .written :: .bytes [r0, r1] :: rest) :
    h.setLimit which t = .done ()
      ((((h.limitEncoded which data warn).moved (writeOf (limitReg which) (bytesOfWord data))
        (.bytes [r0, r1] :: rest)).moved (readOf (limitReg which)) rest).diagnoseIf
          ([r0, r1] != bytesOfWord data) (.limitDivergence which)) := by
  have hsent : (h.limitEncoded which data warn).replies = .written :: .bytes [r0, r1] :: rest := by
    simpa [Session.limitEncoded] using hr
  have hlen : [r0, r1].length = regBytes (limitReg which) := by cases which <;> rfl
  rw [Session.setLimit, Session.issue_answered he, SessionOutcome.andThen_done]
  exact Session.busWrite_andThen_busRead hsent hlen

/-- Settles O51, by the encode of a legal limit and the two transfers. -/
theorem setLimitWritesAndReadsBack : Obligations.SetLimitWritesAndReadsBack := by
  unfold Obligations.SetLimitWritesAndReadsBack
  intro h which t r0 r1 rest hlow hhigh hr
  have he := execEncL_of_legal ⟨hlow, hhigh⟩ h.block
  refine ⟨_, _, _, he, Session.setLimit_done he hr, ?_, ?_, ?_, ?_⟩
  · simp
  · exact (Session.diagnoseIf_block ..).trans (Session.diagnoseIf_block ..)
  · cases which <;> simp [Session.limitEncoded, writeOf, readOf, limitReg, regOffset, regBytes, bytesOfWord]
  · rw [Session.diagnoseIf_diagnostics, diagnostic_unless (bne_eq_false_iff_eq.trans (eq_bytesOfWord_iff r0 r1 _))]
    simp [Session.limitEncoded]

/-- Settles O52: the refused register reads its old word, which is not the one written. -/
theorem refusedLimitWriteIsADivergence : Obligations.RefusedLimitWriteIsADivergence := by
  unfold Obligations.RefusedLimitWriteIsADivergence
  intro h which t config old r0 r1 rest hlow hhigh hlocked hholds hr
  have hold : r0 ++ r1 = old := hholds hlocked
  obtain ⟨data, warn, g, he, hdone, -, -, -, hdiag⟩ := setLimitWritesAndReadsBack h which t r0 r1 rest hlow hhigh hr
  refine ⟨data, warn, he, fun hne => ⟨g, hdone, ?_⟩⟩
  have hdiffers : ¬ r0 ++ r1 = data := hold ▸ hne.symm
  rw [hdiag, if_neg hdiffers]

/-! ### `SET_RES` -/

/-- `SET_RES` of a level, with a write and a read-back that the bus carried out. -/
theorem Session.setRes_done {h : Session} {level r : Byte} {rest : List BusReply} (hlevel : level.toNat ≤ 3)
    (hr : h.replies = .written :: .bytes [r] :: rest) :
    h.setRes level = .done ()
      ((((h.answered (.ok (level.setWidth 16) false)).moved (writeOf .resolution [level])
        (.bytes [r] :: rest)).moved (readOf .resolution) rest).diagnoseIf ([r] != [level]) .resolutionDivergence) := by
  have hsent : (h.answered (.ok (level.setWidth 16) false)).replies = .written :: .bytes [r] :: rest := hr
  have hbyte : (level.setWidth 16).extractLsb' 0 8 = level := by
    apply BitVec.eq_of_getLsbD_eq
    intro i hi
    simp [hi]
    omega
  have he : exec (.encR level) h.block = .next (h.block.respond (.ok (level.setWidth 16) false)) :=
    passLevel_of_level hlevel h.block
  rw [Session.setRes, Session.issue_answered he, SessionOutcome.andThen_done, hbyte]
  exact Session.busWrite_andThen_busRead hsent rfl

/-- Settles O53, by the passthrough of the level and the two transfers. -/
theorem setResWritesAndReadsBack : Obligations.SetResWritesAndReadsBack := by
  unfold Obligations.SetResWritesAndReadsBack
  intro h level r rest hlevel hr
  have hsame : ([r] != [level]) = false ↔ r = level := by simp
  refine ⟨_, Session.setRes_done hlevel hr, ?_, ?_, ?_, ?_, ?_⟩
  · simp
  · simp
  · simp
  · simp [writeOf, readOf, regOffset, regBytes]
  · rw [Session.diagnoseIf_diagnostics, diagnostic_unless hsame]
    rfl

/-! ### `READ_TEMP` and `READ_FLAGS` -/

/-- The flags of a word read from the bus are the top bits of its first byte (rules R33, R90). -/
theorem alertFlags_append (b0 b1 : Byte) :
    (alertFlags (b0 ++ b1)).getLsbD 2 = b0.getLsbD 7 ∧ (alertFlags (b0 ++ b1)).getLsbD 1 = b0.getLsbD 6 ∧
      (alertFlags (b0 ++ b1)).getLsbD 0 = b0.getLsbD 5 := by
  simp [← wordOfBytes_eq_append, wordOfBytes, alertFlags]

/-- A read of the temperature register and one command on the word read. -/
theorem Session.readTemperature_andThen_issue {α : Type} {h : Session} {b0 b1 : Byte} {rest : List BusReply}
    {i : Word → Instr} {data : Word} {f : Word × Bool → Session → SessionOutcome α}
    (hr : h.replies = .bytes [b0, b1] :: rest)
    (he : ∀ s, exec (i (b0 ++ b1)) s = .next (s.respond (.ok data false))) :
    ((h.readWord .temperature).andThen fun r g => (g.issue (i r)).andThen f) =
      f (data, false) ((h.moved (readOf .temperature) rest).answered (.ok data false)) := by
  rw [Session.readWord_bytes .temperature hr rfl, SessionOutcome.andThen_done, Session.issue_answered (he _)]
  rfl

/-- Settles O54, by the one read and the decode of the word read. -/
theorem readTempAndFlagsDecodeOneReadEach : Obligations.ReadTempAndFlagsDecodeOneReadEach := by
  unfold Obligations.ReadTempAndFlagsDecodeOneReadEach
  intro h b0 b1 rest hr
  constructor
  · rw [Session.readTemp, Session.readTemperature_andThen_issue hr (i := .decT) fun _ => rfl, s16_tempSixteenths]
    exact ⟨_, rfl, rfl, rfl, rfl, rfl, rfl⟩
  · obtain ⟨hcritical, hupper, hlower⟩ := alertFlags_append b0 b1
    rw [Session.readFlags, Session.readTemperature_andThen_issue hr (i := .decF) fun _ => rfl, hcritical, hupper,
      hlower]
    exact ⟨_, rfl, rfl, rfl, rfl, rfl, rfl⟩

end Sys2Proof.Machine

/-! SUPPORT. Every transfer of the host is a whole register of the map (rules R31 to R36). -/

namespace Sys2Proof.Machine

open Sys2Proof.Safety

/-! ### The primitives -/

theorem readOf_wellFormed (reg : SensorReg) : (readOf reg).wellFormed = true := by cases reg <;> rfl

/-- A write of the register's width is well-formed where the host writes (rules R34, R36). -/
theorem writeOf_wellFormed {reg : SensorReg} {bs : List Byte} (hlen : bs.length = regBytes reg)
    (hwrite : registerWritable (regOffset reg) = true) : (writeOf reg bs).wellFormed = true := by
  rw [writeOf, Transfer.wellFormed, hwrite, hlen]
  cases reg <;> rfl

theorem transfersLegal_of_transfers_eq {h g : Session} (hh : TransfersLegal h) (e : g.transfers = h.transfers) :
    TransfersLegal g := by
  intro t ht
  exact hh t (e ▸ ht)

theorem Session.diagnoseIf_transfersLegal {h : Session} (hh : TransfersLegal h) (b : Bool) (d : Diagnostic) :
    TransfersLegal (h.diagnoseIf b d) :=
  transfersLegal_of_transfers_eq hh (h.diagnoseIf_transfers b d)

theorem Session.issue_transfersLegal {h : Session} (hh : TransfersLegal h) (i : Instr) :
    TransfersLegal (h.issue i).session :=
  transfersLegal_of_transfers_eq hh (h.issue_transfers i)

theorem Session.transfer_transfersLegal {h : Session} {t : Transfer} (hh : TransfersLegal h)
    (ht : t.wellFormed = true) : TransfersLegal (h.transfer t).session := by
  intro u hu
  rw [Session.transfer_transfers, List.mem_append, List.mem_singleton] at hu
  rcases hu with hu | rfl
  · exact hh u hu
  · exact ht

theorem Session.busRead_transfersLegal {h : Session} (hh : TransfersLegal h) (reg : SensorReg) :
    TransfersLegal (h.busRead reg).session := by
  refine SessionOutcome.andThen_keeps _ (Session.transfer_transfersLegal hh (readOf_wellFormed reg)) fun r g hg => ?_
  cases r with
  | bytes bs =>
    dsimp only
    split <;> exact hg
  | written | transportError => exact hg

theorem Session.readWord_transfersLegal {h : Session} (hh : TransfersLegal h) (reg : SensorReg) :
    TransfersLegal (h.readWord reg).session := by
  refine SessionOutcome.andThen_keeps _ (Session.busRead_transfersLegal hh reg) fun bs g hg => ?_
  split <;> exact hg

theorem Session.busWrite_transfersLegal {h : Session} {reg : SensorReg} {bs : List Byte} (hh : TransfersLegal h)
    (hlen : bs.length = regBytes reg) (hwrite : registerWritable (regOffset reg) = true) :
    TransfersLegal (h.busWrite reg bs).session := by
  refine SessionOutcome.andThen_keeps _ (Session.transfer_transfersLegal hh (writeOf_wellFormed hlen hwrite))
    fun r g hg => ?_
  cases r <;> exact hg

theorem Session.reload_transfersLegal {h : Session} (hh : TransfersLegal h) : TransfersLegal h.reload.session :=
  SessionOutcome.andThen_keeps _ (Session.readWord_transfersLegal hh .config) fun r _ hg =>
    SessionOutcome.andThen_keeps _ (Session.issue_transfersLegal hg (.ldC r)) fun _ _ hg => hg

/-! ### The operations -/

theorem Session.init_transfersLegal {h : Session} (hh : TransfersLegal h) : TransfersLegal h.init.session := by
  refine SessionOutcome.andThen_keeps _ (Session.readWord_transfersLegal hh .manufacturerId) fun m g hg => ?_
  split
  · refine SessionOutcome.andThen_keeps _ (Session.readWord_transfersLegal hg .deviceId) fun d g hg => ?_
    split
    · exact Session.reload_transfersLegal (Session.diagnoseIf_transfersLegal hg _ _)
    · exact hg
  · exact hg

theorem Session.applyCfg_transfersLegal {h : Session} (hh : TransfersLegal h) (o : Overrides) :
    TransfersLegal (h.applyCfg o).session := by
  refine SessionOutcome.andThen_keeps _ (Session.issue_transfersLegal hh (.encC o)) fun c g hg => ?_
  refine SessionOutcome.andThen_keeps _ (Session.busWrite_transfersLegal hg rfl rfl) fun _ g hg => ?_
  exact SessionOutcome.andThen_keeps _ (Session.reload_transfersLegal hg) fun _ _ hg =>
    Session.diagnoseIf_transfersLegal hg _ _

theorem Session.setLimit_transfersLegal {h : Session} (hh : TransfersLegal h) (which : LimitKind) (t : Word) :
    TransfersLegal (h.setLimit which t).session := by
  have hlen (w : Word) : (bytesOfWord w).length = regBytes (limitReg which) := by cases which <;> rfl
  have hwrite : registerWritable (regOffset (limitReg which)) = true := by cases which <;> rfl
  refine SessionOutcome.andThen_keeps _ (Session.issue_transfersLegal hh (.encL t)) fun c g hg => ?_
  refine SessionOutcome.andThen_keeps _
    (Session.busWrite_transfersLegal (Session.diagnoseIf_transfersLegal hg _ _) (hlen c.1) hwrite) fun _ g hg => ?_
  exact SessionOutcome.andThen_keeps _ (Session.busRead_transfersLegal hg _) fun _ _ hg =>
    Session.diagnoseIf_transfersLegal hg _ _

theorem Session.setRes_transfersLegal {h : Session} (hh : TransfersLegal h) (level : Byte) :
    TransfersLegal (h.setRes level).session := by
  refine SessionOutcome.andThen_keeps _ (Session.issue_transfersLegal hh (.encR level)) fun c g hg => ?_
  refine SessionOutcome.andThen_keeps _ (Session.busWrite_transfersLegal hg rfl rfl) fun _ g hg => ?_
  exact SessionOutcome.andThen_keeps _ (Session.busRead_transfersLegal hg .resolution) fun _ _ hg =>
    Session.diagnoseIf_transfersLegal hg _ _

theorem Session.readTemp_transfersLegal {h : Session} (hh : TransfersLegal h) : TransfersLegal h.readTemp.session :=
  SessionOutcome.andThen_keeps _ (Session.readWord_transfersLegal hh .temperature) fun r _ hg =>
    SessionOutcome.andThen_keeps _ (Session.issue_transfersLegal hg (.decT r)) fun _ _ hg => hg

theorem Session.readFlags_transfersLegal {h : Session} (hh : TransfersLegal h) :
    TransfersLegal h.readFlags.session :=
  SessionOutcome.andThen_keeps _ (Session.readWord_transfersLegal hh .temperature) fun r _ hg =>
    SessionOutcome.andThen_keeps _ (Session.issue_transfersLegal hg (.decF r)) fun _ _ hg => hg

/-- Settles O56: each operation is a sequence of block commands and whole-register transfers. -/
theorem sessionTransfersStayInTheMap : Obligations.SessionTransfersStayInTheMap := by
  unfold Obligations.SessionTransfersStayInTheMap
  intro h hh
  exact ⟨Session.init_transfersLegal hh, Session.applyCfg_transfersLegal hh, Session.setLimit_transfersLegal hh,
    Session.readTemp_transfersLegal hh, Session.readFlags_transfersLegal hh, Session.setRes_transfersLegal hh⟩

end Sys2Proof.Machine

/-! SUPPORT. The other round trip: what the encoder gives back of a decoded word is the bits its layout uses
(rules R65, R66, R69, R74). -/

namespace Sys2Proof.Machine

open Sys2Proof.Safety

/-- Settles O2, by the round trip of each operation code and layout. -/
theorem decodeOfEncodeIsIdentity : Obligations.DecodeOfEncodeIsIdentity := by
  unfold Obligations.DecodeOfEncodeIsIdentity
  exact decode_encode

/-- Settles O1: each word's operation code and operand are read off the literal. -/
theorem specCommandWordsDecode : Obligations.SpecCommandWordsDecode := by
  unfold Obligations.SpecCommandWordsDecode
  decide

/-! ### The operand bits each layout keeps -/

theorem wordArg_layoutW (arg : BitVec 32) : wordArg (layoutW arg) = arg &&& 0x0000FFFF#32 := by
  apply BitVec.eq_of_getLsbD_eq
  intro i hi
  interval_cases i <;> simp [wordArg, layoutW]

theorem byteArg_layoutB (arg : BitVec 32) : byteArg (layoutB arg) = arg &&& 0x000000FF#32 := by
  apply BitVec.eq_of_getLsbD_eq
  intro i hi
  interval_cases i <;> simp [byteArg, layoutB]

/-- Layout O uses the enables, and each value whose enable bit is 1 (rule R69). -/
def layoutOUses (c : Command) (i : Nat) : Bool :=
  if i < 9 then true
  else if i < 16 then false
  else if i < 24 then c.getLsbD 0
  else c.getLsbD (i - 23)

theorem getElem_override_level (enable : Bool) (value : Byte) (i : Nat) (hi : i < 8) :
    ((override enable value).getD 0#8)[i] = (value[i] && enable) := by
  cases enable <;> simp [override]

theorem override_getD_false (enable value : Bool) : (override enable value).getD false = (value && enable) := by
  cases enable <;> simp [override]

/-- Encoding decoded overrides keeps the used bits of the operand (rules R69, R75). -/
theorem getElem_arg_layoutO (c : Command) (i : Nat) (hi : i < 32) :
    (layoutO (argField c)).arg[i] = (c.getLsbD i && layoutOUses c i) := by
  rw [getElem_overridesArg, en_layoutO]
  interval_cases i <;>
    simp [layoutO, layoutOUses, Overrides.bools, override_getD_false, getElem_override_level, getElem_argField]

/-! ### The mask of used bits -/

theorem getLsbD_mask (enable : Bool) (positions : Command) (i : Nat) :
    (if enable then positions else 0#36).getLsbD i = (enable && positions.getLsbD i) := by
  cases enable <;> simp

/-- The used bits of an `ENC_C` word: the operation code, and what layout O uses of the operand. -/
theorem getLsbD_usedBits_encC {c : Command} (hop : (c.extractLsb' 32 4).toNat = 7) (i : Nat) (hi : i < 36) :
    (usedBits c).getLsbD i = (decide (32 ≤ i) || layoutOUses c i) := by
  rw [usedBits, hop]
  simp only [BitVec.getLsbD_or, getLsbD_mask]
  interval_cases i <;> simp [layoutOUses]

/-- Masking a command word keeps its operation code and masks its operand. -/
theorem commandWord_eq_and {c mask : Command} {op : BitVec 4} {arg : BitVec 32}
    (hop : (c.extractLsb' 32 4).toNat = op.toNat) (hkeep : mask.extractLsb' 32 4 = 0xF#4)
    (harg : arg = argField c &&& argField mask) : commandWord op arg = c &&& mask := by
  obtain rfl := BitVec.eq_of_toNat_eq hop
  have hones (j : Nat) (hj : j < 4) : mask.getLsbD (32 + j) = true := by
    have hbit := congrArg (BitVec.getLsbD · j) hkeep
    rw [BitVec.getLsbD_extractLsb', decide_eq_true hj, Bool.true_and] at hbit
    rw [hbit]
    interval_cases j <;> rfl
  apply BitVec.eq_of_getLsbD_eq
  intro i hi
  rw [getLsbD_commandWord, BitVec.getLsbD_and, harg]
  by_cases h : i < 32
  · simp [h, hi, argField]
  · obtain ⟨j, rfl⟩ := Nat.exists_eq_add_of_le (Nat.le_of_not_lt h)
    have hj : j < 4 := by omega
    rw [hones j hj]
    simp [hi, hj]

theorem encode_decode_encC {c : Command} (hop : (c.extractLsb' 32 4).toNat = 7) :
    encode (.encC (layoutO (argField c))) = c &&& usedBits c := by
  refine commandWord_eq_and hop ?_ ?_
  · apply BitVec.eq_of_getLsbD_eq
    intro i hi
    rw [BitVec.getLsbD_extractLsb', getLsbD_usedBits_encC hop _ (by omega)]
    interval_cases i <;> rfl
  · apply BitVec.eq_of_getElem_eq
    intro i hi
    rw [getElem_arg_layoutO, BitVec.getElem_and, getElem_argField, getElem_argField,
      getLsbD_usedBits_encC hop _ (by omega), decide_eq_false (by omega), Bool.false_or]

/-- The encoder clears what the decoder dropped, by the operation code. -/
theorem encode_decode (c : Command) : encode (decode c) = c &&& usedBits c := by
  have hlt := (c.extractLsb' 32 4).isLt
  match hop : (c.extractLsb' 32 4).toNat with
  | 0 | 1 | 2 | 5 | 6 =>
    simp only [decode_by_code, usedBits, hop]
    exact commandWord_eq_and hop rfl (wordArg_layoutW _)
  | 3 | 4 =>
    simp only [decode_by_code, usedBits, hop]
    exact commandWord_eq_and hop rfl (byteArg_layoutB _)
  | 7 =>
    rw [decode_by_code, hop]
    exact encode_decode_encC hop
  | 8 | 9 | 10 | 11 | 12 | 13 | 14 | 15 =>
    simp only [decode_by_code, usedBits, hop]
    exact commandWord_eq_and hop rfl BitVec.and_zero.symm
  | _ + 16 => omega

/-- Settles O3, by the operation code and what its layout keeps of the operand. -/
theorem encodeOfDecodeClearsIgnoredBits : Obligations.EncodeOfDecodeClearsIgnoredBits := by
  unfold Obligations.EncodeOfDecodeClearsIgnoredBits
  exact encode_decode

/-- Words that agree in their used bits decode alike, since the decoder undoes the encoder. -/
theorem decode_eq_of_usedBits_eq {c d : Command} (h : c &&& usedBits c = d &&& usedBits d) : decode c = decode d := by
  calc decode c = decode (encode (decode c)) := (decode_encode _).symm
    _ = decode (encode (decode d)) := by rw [encode_decode, encode_decode, h]
    _ = decode d := decode_encode _

/-- Settles O4: a step runs what its command word decodes to. -/
theorem ignoredBitsHaveNoEffect : Obligations.IgnoredBitsHaveNoEffect := by
  unfold Obligations.IgnoredBitsHaveNoEffect
  intro c d s h
  rw [step_present, step_present, decode_eq_of_usedBits_eq h]

end Sys2Proof.Machine

/-! SUPPORT. Reserved operation codes and resolution levels (rules R74, R110 to R113). -/

namespace Sys2Proof.Machine

/-- The instructions of the operation codes 0x9 to 0xF (rule R74). -/
def reservedInstrs : List Instr :=
  [.reserved9, .reservedA, .reservedB, .reservedC, .reservedD, .reservedE, .reservedF]

theorem exec_of_reserved {i : Instr} (hi : i ∈ reservedInstrs) (s : State) :
    exec i s = .next (s.respond (.error .illegalOp)) := by
  simp only [reservedInstrs, List.mem_cons, List.not_mem_nil, or_false] at hi
  rcases hi with rfl | rfl | rfl | rfl | rfl | rfl | rfl <;> rfl

theorem decode_mem_reservedInstrs {c : Command} (hc : 9 ≤ (c.extractLsb' 32 4).toNat) :
    decode c ∈ reservedInstrs := by
  rw [decode_by_code]
  obtain ⟨k, hk⟩ := Nat.exists_eq_add_of_le' hc
  rw [hk]
  match k with
  | 0 | 1 | 2 | 3 | 4 | 5 | _ + 6 => simp [reservedInstrs]

/-- Settles O9: a reserved code decodes to a reserved instruction, and each of those answers IllegalOp. -/
theorem reservedCodesAnswerIllegalOp : Obligations.ReservedCodesAnswerIllegalOp := by
  unfold Obligations.ReservedCodesAnswerIllegalOp
  refine ⟨fun c s hc => ?_, fun i s hi => exec_of_reserved hi s⟩
  rw [step_present]
  exact exec_of_reserved (decode_mem_reservedInstrs hc) s

/-- Settles O22, by the passthrough that `DEC_R` and `ENC_R` share. -/
theorem resolutionLevelsPassThrough : Obligations.ResolutionLevelsPassThrough := by
  unfold Obligations.ResolutionLevelsPassThrough
  intro b s
  exact ⟨fun h => ⟨passLevel_of_level h s, passLevel_of_level h s⟩,
    fun h => ⟨passLevel_of_not_level h s, passLevel_of_not_level h s⟩⟩

end Sys2Proof.Machine

/-! SUPPORT. The response word determines the response, and only `ENC_L` warns (rule R70). -/

namespace Sys2Proof.Machine

/-! ### The fields of the response word -/

theorem wire_ok_status (data : Word) (warn : Bool) : (Response.ok data warn).wire.extractLsb' 17 3 = 0#3 := by
  apply BitVec.eq_of_getLsbD_eq
  intro i hi
  interval_cases i <;> simp [getElem_wire_ok]

theorem wire_ok_warn (data : Word) (warn : Bool) : (Response.ok data warn).wire.getLsbD 16 = warn := by
  simp [getElem_wire_ok]

theorem wire_ok_data (data : Word) (warn : Bool) : (Response.ok data warn).wire.extractLsb' 0 16 = data := by
  apply BitVec.eq_of_getLsbD_eq
  intro i hi
  interval_cases i <;> simp [getElem_wire_ok]

theorem wire_error_status (e : ErrorStatus) : (Response.error e).wire.extractLsb' 17 3 = e.code := by
  cases e <;> rfl

theorem wire_error_warn (e : ErrorStatus) : (Response.error e).wire.getLsbD 16 = false := by
  cases e <;> rfl

theorem ErrorStatus.code_ne_zero (e : ErrorStatus) : e.code ≠ 0#3 := by
  cases e <;> decide

theorem ErrorStatus.code_injective : Function.Injective ErrorStatus.code := by
  intro e f
  cases e <;> cases f <;> simp [ErrorStatus.code]

theorem wire_status_le (r : Response) : (r.wire.extractLsb' 17 3).toNat ≤ 3 := by
  cases r with
  | ok data warn => rw [wire_ok_status]; decide
  | error e => rw [wire_error_status]; cases e <;> decide

theorem wire_ok_ne_wire_error (data : Word) (warn : Bool) (e : ErrorStatus) :
    (Response.ok data warn).wire ≠ (Response.error e).wire := by
  intro h
  have hstatus := congrArg (BitVec.extractLsb' 17 3) h
  rw [wire_ok_status, wire_error_status] at hstatus
  exact e.code_ne_zero hstatus.symm

theorem wire_injective : Function.Injective Response.wire := by
  rintro (⟨data, warn⟩ | e) (⟨data', warn'⟩ | e') h
  · have hdata := congrArg (BitVec.extractLsb' 0 16) h
    have hwarn := congrArg (BitVec.getLsbD · 16) h
    simp only [wire_ok_data, wire_ok_warn] at hdata hwarn
    rw [hdata, hwarn]
  · exact absurd h (wire_ok_ne_wire_error data warn e')
  · exact absurd h.symm (wire_ok_ne_wire_error data' warn' e)
  · have hcode := congrArg (BitVec.extractLsb' 17 3) h
    rw [wire_error_status, wire_error_status] at hcode
    rw [ErrorStatus.code_injective hcode]

/-! ### The warning -/

/-- Every command but `ENC_L` answers with the warning bit 0 (rules R70, R160). -/
theorem exec_warn_only_encL (i : Instr) (s : State) :
    ∃ t r, exec i s = .next t ∧ t.rsp = some r ∧ (r.wire.getLsbD 16 = true → ∃ q, i = .encL q) := by
  have unwarned {t : State} {r : Response} (h : exec i s = .next t) (ht : t.rsp = some r)
      (hr : r.wire.getLsbD 16 = false) :
      ∃ t r, exec i s = .next t ∧ t.rsp = some r ∧ (r.wire.getLsbD 16 = true → ∃ q, i = .encL q) :=
    ⟨t, r, h, ht, fun hw => nomatch hr.symm.trans hw⟩
  cases i with
  | encL q =>
    obtain ⟨t, r, h, ht, -⟩ := exec_legal_response (.encL q) s
    exact ⟨t, r, h, ht, fun _ => ⟨q, rfl⟩⟩
  | decT w | decF w | decC w | ldC w => exact unwarned rfl rfl (wire_ok_warn _ _)
  | decR b | encR b =>
    rcases Nat.lt_or_ge 3 b.toNat with h | h
    · exact unwarned (passLevel_of_not_level h s) rfl (wire_error_warn _)
    · exact unwarned (passLevel_of_level h s) rfl (wire_ok_warn _ _)
  | encC o =>
    rcases execEncC_cases o s with ⟨-, h⟩ | ⟨-, -, -, h⟩ | ⟨-, -, h⟩
    · exact unwarned h rfl (wire_error_warn _)
    · exact unwarned h rfl (wire_error_warn _)
    · exact unwarned h rfl (wire_ok_warn _ _)
  | rdC =>
    rcases execRdC_cases s with ⟨-, h⟩ | ⟨-, h⟩
    · exact unwarned h rfl (wire_ok_warn _ _)
    · exact unwarned h rfl (wire_error_warn _)
  | reserved9 | reservedA | reservedB | reservedC | reservedD | reservedE | reservedF =>
    exact unwarned rfl rfl (wire_error_warn _)

/-- Settles O38, by the fields of the response word; the status tells an error from a result. -/
theorem responseWordFormat : Obligations.ResponseWordFormat := by
  unfold Obligations.ResponseWordFormat
  refine ⟨fun data warn => ⟨?_, ?_, ?_⟩, rfl, rfl, rfl, wire_status_le, ?_, exec_warn_only_encL⟩
  · exact wire_ok_status data warn
  · exact wire_ok_warn data warn
  · exact wire_ok_data data warn
  · exact fun _ _ h => wire_injective h

end Sys2Proof.Machine

/-! SUPPORT. A session operation whose block command answers an error stops there (rules R76, R156). -/

namespace Sys2Proof.Machine

open Sys2Proof.Safety

/-- A command that answers an error, which changes only the response port (rule R154). -/
theorem Session.issue_answered_error {h : Session} {i : Instr} {e : ErrorStatus}
    (he : exec i h.block = .next (h.block.respond (.error e))) :
    h.issue i = .failed (.blockError e) (h.answered (.error e)) :=
  Session.issue_error (decode_encode i) he rfl

/-- An operation that begins with a refused command ends with its error, with no transfer, no diagnostic and the
cache as before. -/
theorem Session.issue_error_andThen {α : Type} {h : Session} {i : Instr} {e : ErrorStatus}
    (he : exec i h.block = .next (h.block.respond (.error e))) (f : Word × Bool → Session → SessionOutcome α) :
    ∃ g, (h.issue i).andThen f = .failed (.blockError e) g ∧ g.transfers = h.transfers ∧
      g.diagnostics = h.diagnostics ∧ g.block.cfg = h.block.cfg ∧ g.block.cfgValid = h.block.cfgValid := by
  rw [Session.issue_answered_error he]
  exact ⟨_, rfl, rfl, rfl, rfl, rfl⟩

/-- `ENC_C` answers an error wherever it cannot encode (rules R129, R131). -/
theorem exec_encC_of_not_canEncode {o : Overrides} {s : State} (h : ¬ CanEncode o s) :
    ∃ e, exec (.encC o) s = .next (s.respond (.error e)) := by
  rcases execEncC_cases o s with ⟨-, hs⟩ | ⟨-, -, -, hs⟩ | ⟨ho, hc, -⟩
  · exact ⟨_, hs⟩
  · exact ⟨_, hs⟩
  · exact absurd ⟨(hystIllegal_eq_false o).1 ho, hc.imp_right (needsCache_eq_false o).1⟩ h

/-- Settles O47: each of the three operations begins with a command that answers the error. -/
theorem failedEncodeWritesNothing : Obligations.FailedEncodeWritesNothing := by
  unfold Obligations.FailedEncodeWritesNothing
  refine ⟨fun h which t ht => ?_, fun h level hlevel => ?_, fun h o ho => ?_⟩
  · exact Session.issue_error_andThen (i := .encL t) (execEncL_of_illegal (by omega) h.block) _
  · exact Session.issue_error_andThen (i := .encR level) (passLevel_of_not_level hlevel h.block) _
  · obtain ⟨e, he⟩ := exec_encC_of_not_canEncode ho
    exact ⟨e, Session.issue_error_andThen he _⟩

end Sys2Proof.Machine

/-! SUPPORT. The temperature codec: the 13 bits of `DEC_T`, the flags of `DEC_F`, the fields of a limit word, and
`DEC_T` of a limit word. -/

namespace Sys2Proof.Machine

/-! ### The temperature of a word (rules R85 to R87) -/

/-- `I8` is one contiguous field, bits 11:4 (rule R50). -/
theorem tempIntegral_eq_extract (w : Word) : tempIntegral w = (w.extractLsb' 4 8).toNat := by
  rw [tempIntegral_eq, BitVec.extractLsb'_toNat, Nat.shiftRight_eq_div_pow]

/-- The sign extension repeats the sign bit three times above the 13 bits (rule R85). -/
theorem signExtend_low13_eq_append (w : Word) :
    (w.setWidth 13).signExtend 16 =
      BitVec.ofBool (w.getLsbD 12) ++ BitVec.ofBool (w.getLsbD 12) ++ BitVec.ofBool (w.getLsbD 12) ++
        w.extractLsb' 0 13 := by
  rw [BitVec.signExtend_eq_append_of_le (by decide), BitVec.msb_setWidth,
    ← BitVec.setWidth_eq_extractLsb' (by decide)]
  cases w.getLsbD 12 <;> rfl

/-- Settles O10, by the value of the low 13 bits. -/
theorem decTSignExtendsThirteenBits : Obligations.DecTSignExtendsThirteenBits := by
  unfold Obligations.DecTSignExtendsThirteenBits
  intro w s
  refine ⟨_, rfl, ?_, ?_, ?_⟩
  · rw [toInt_decT, tempSixteenths, tempIntegral_eq_extract, tempFraction, tempSign]
  · rw [s16_tempSixteenths, BitVec.setWidth_eq_extractLsb' (by decide)]
  · rw [s16_tempSixteenths, signExtend_low13_eq_append]

/-- The mask 0x1FFF keeps the low 13 bits. -/
theorem and_1FFF_eq_iff (w v : Word) : w &&& 0x1FFF#16 = v &&& 0x1FFF#16 ↔ w.setWidth 13 = v.setWidth 13 := by
  have hmask (u : Word) : u &&& 0x1FFF#16 = (u.setWidth 13).setWidth 16 := by
    apply BitVec.eq_of_getLsbD_eq
    intro i hi
    interval_cases i <;> simp
  rw [hmask, hmask]
  refine ⟨fun h => ?_, fun h => by rw [h]⟩
  simpa using congrArg (BitVec.setWidth 13) h

/-- Sign extension loses nothing, so `DEC_T` answers one value per value of bits 12:0 (rule R86). -/
theorem s16_tempSixteenths_eq_iff (w v : Word) :
    s16 (tempSixteenths w) = s16 (tempSixteenths v) ↔ w.setWidth 13 = v.setWidth 13 := by
  rw [← BitVec.toInt_inj, toInt_decT, toInt_decT, tempSixteenths_eq_toInt, tempSixteenths_eq_toInt, BitVec.toInt_inj]

/-- Two `DEC_T` commands end alike exactly when they answer the same data. -/
theorem exec_decT_eq_iff (w v : Word) (s : State) :
    exec (.decT w) s = exec (.decT v) s ↔ s16 (tempSixteenths w) = s16 (tempSixteenths v) := by
  simp [exec, execDecT, finish, State.respond]

/-- Settles O11: equal responses are equal low 13 bits. -/
theorem decTDependsOnLowThirteenBitsOnly : Obligations.DecTDependsOnLowThirteenBitsOnly := by
  unfold Obligations.DecTDependsOnLowThirteenBitsOnly
  intro w v s
  rw [exec_decT_eq_iff, s16_tempSixteenths_eq_iff, and_1FFF_eq_iff]

/-- A temperature is negative exactly by its sign bit, since `16*I8 + frac` is at most 4095 (rule R87). -/
theorem tempSixteenths_range (w : Word) :
    (tempSign w = true → -4096 ≤ tempSixteenths w ∧ tempSixteenths w ≤ -1) ∧
      (tempSign w = false → 0 ≤ tempSixteenths w ∧ tempSixteenths w ≤ 4095) := by
  rw [tempSixteenths, tempIntegral_eq, tempFraction_eq]
  constructor
  · intro hsign
    rw [hsign, Bool.toNat_true]
    omega
  · intro hsign
    rw [hsign, Bool.toNat_false]
    omega

/-- Data bits 15:12 of `DEC_T` are the sign bit (rule R87). -/
theorem getLsbD_decT_of_ge {k : Nat} (hk : 12 ≤ k) (hk16 : k < 16) (w : Word) :
    (s16 (tempSixteenths w)).getLsbD k = w.getLsbD 12 := by
  rw [s16_tempSixteenths, BitVec.getLsbD_signExtend]
  split
  · obtain rfl : k = 12 := by omega
    simp
  · simp [hk16, BitVec.msb_setWidth]

/-- Settles O12, by the range of the temperature and the copies of its sign bit. -/
theorem decTRangeFollowsSignBit : Obligations.DecTRangeFollowsSignBit := by
  unfold Obligations.DecTRangeFollowsSignBit
  intro w s
  obtain ⟨hneg, hnonneg⟩ := tempSixteenths_range w
  refine ⟨_, rfl, ?_, ?_, fun k hk hk16 => getLsbD_decT_of_ge hk hk16 w⟩
  · rwa [toInt_decT]
  · rwa [toInt_decT]

/-! ### The alert flags (rule R90) -/

/-- Settles O14: the data is the word shifted by 13. -/
theorem decFGivesAlertFlags : Obligations.DecFGivesAlertFlags := by
  unfold Obligations.DecFGivesAlertFlags
  intro w s
  refine ⟨w >>> 13, ?_, ?_, ?_, ?_, ?_, rfl⟩
  · rw [exec, execDecF, alertFlags_eq_shift]
    rfl
  · simp
  · simp
  · simp
  · apply BitVec.eq_of_getLsbD_eq
    intro i hi
    simp [BitVec.getLsbD_of_ge w (13 + (3 + i)) (by omega)]

/-! ### Validation and warning of `ENC_L` (rules R94, R100) -/

/-- Settles O15, by the two cases of `ENC_L`. -/
theorem encLValidatesItsOperand : Obligations.EncLValidatesItsOperand := by
  unfold Obligations.EncLValidatesItsOperand
  exact fun q s => ⟨fun h => execEncL_of_illegal (by omega) s, fun h => ⟨_, _, execEncL_of_legal h s⟩⟩

theorem wRange_eq_decide (n : Int) : wRange n = decide (n < -640 ∨ 2000 < n) := by simp [wRange]

/-- Settles O18: a legal operand is answered with the `W_RANGE` test. -/
theorem encLWarnsOutsideOperatingRange : Obligations.EncLWarnsOutsideOperatingRange := by
  unfold Obligations.EncLWarnsOutsideOperatingRange
  intro q s hlow hhigh
  rw [← wRange_eq_decide]
  exact ⟨_, execEncL_of_legal ⟨hlow, hhigh⟩ s⟩

/-! ### The fields of a limit word (rules R95 to R98) -/

theorem limitWord_getLsbD_sign (n : Int) : (limitWord n).getLsbD 12 = decide (n < 0) := by
  have hi := limitIntegral_lt n
  have hf := limitFraction_lt n
  rw [BitVec.getLsbD, Nat.testBit_eq_decide_div_mod_eq, limitWord_toNat, decide_eq_decide, limitSign]
  split <;> omega

theorem limitWord_extract_integral (n : Int) : ((limitWord n).extractLsb' 4 8).toNat = limitIntegral n := by
  have hi := limitIntegral_lt n
  have hf := limitFraction_lt n
  rw [BitVec.extractLsb'_toNat, Nat.shiftRight_eq_div_pow, limitWord_toNat]
  omega

theorem limitWord_extract_fraction (n : Int) : ((limitWord n).extractLsb' 2 2).toNat = limitFraction n := by
  have hf := limitFraction_lt n
  rw [BitVec.extractLsb'_toNat, Nat.shiftRight_eq_div_pow, limitWord_toNat]
  omega

/-- The zero bits of a limit word (rule R52). -/
theorem limitWord_extract_unused (n : Int) :
    (limitWord n).extractLsb' 13 3 = 0#3 ∧ (limitWord n).extractLsb' 0 2 = 0#2 := by
  have hs := limitSign_lt n
  have hi := limitIntegral_lt n
  have hf := limitFraction_lt n
  rw [← BitVec.toNat_inj, ← BitVec.toNat_inj, BitVec.extractLsb'_toNat, BitVec.extractLsb'_toNat,
    Nat.shiftRight_eq_div_pow, Nat.shiftRight_eq_div_pow, limitWord_toNat, BitVec.toNat_ofNat, BitVec.toNat_ofNat]
  omega

/-- The integral part and the fraction of a legal limit, read off the closed form of its word. -/
theorem limitFields_closed_form {n : Int} (hlow : -2048 ≤ n) (hhigh : n ≤ 2032) :
    (limitIntegral n : Int) = (if 0 ≤ n then n / 16 else if -16 < n then 255 else 256 - (-n) / 16) ∧
      (limitFraction n : Int) = (if 0 ≤ n then n % 16 / 4 else (4 - (-n) % 16 / 4) % 4) := by
  have hword := limitWord_toNat n
  have hs := limitSign_lt n
  have hi := limitIntegral_lt n
  have hf := limitFraction_lt n
  by_cases h0 : 0 ≤ n
  · have hvalue := limitWord_toNat_of_nonneg h0 hhigh
    rw [if_pos h0, if_pos h0]
    omega
  · obtain ⟨m, rfl⟩ := Int.exists_eq_neg_ofNat (show n ≤ 0 by omega)
    have hvalue := limitWord_toNat_of_neg (m := m) (by omega) (by omega)
    rw [if_neg h0, if_neg h0]
    split at hvalue <;> split <;> omega

/-- Settles O16, field by field of the packed word. -/
theorem encLFieldsOfTheLimitWord : Obligations.EncLFieldsOfTheLimitWord := by
  unfold Obligations.EncLFieldsOfTheLimitWord
  intro q s hlow hhigh
  obtain ⟨hintegral, hfraction⟩ := limitFields_closed_form hlow hhigh
  refine ⟨_, _, execEncL_of_legal ⟨hlow, hhigh⟩ s, ?_, ?_, ?_, ?_, limitWord_extract_unused _⟩
  · rw [limitWord_getLsbD_sign, decide_eq_true_iff]
  · rw [limitWord_extract_integral, hintegral]
  · rw [limitWord_extract_integral, limitWord_extract_fraction, limitFraction]
    omega
  · rw [limitWord_extract_fraction, hfraction]

/-! ### The closed form of a limit word (rule R99) -/

theorem ofNat_shiftLeft (n k : Nat) : BitVec.ofNat 16 n <<< k = BitVec.ofNat 16 (n * 2 ^ k) := by
  apply BitVec.eq_of_toNat_eq
  simp [Nat.shiftLeft_eq]

/-- Settles O17, by the closed form with the shifts written as products. -/
theorem encLClosedForm : Obligations.EncLClosedForm := by
  unfold Obligations.EncLClosedForm
  intro q s hlow hhigh
  have hword := limitWord_closed_form ⟨hlow, hhigh⟩
  refine ⟨_, _, execEncL_of_legal ⟨hlow, hhigh⟩ s, fun h0 => by rw [hword, if_pos h0], ?_⟩
  rintro m a k i f hm hpos rfl rfl rfl rfl
  have hmag : (-q.toInt).toNat = m := by omega
  have hintegral : (if m / 16 = 0 then 0xFF0 else (256 - m / 16) * 16) =
      (if m / 16 = 0 then 0xFF else 256 - m / 16) * 2 ^ 4 := by split <;> rfl
  rw [hword, if_neg (by omega), hmag, hintegral, ofNat_shiftLeft, ofNat_shiftLeft]
  rfl

/-! ### `DEC_T` of a limit word (rules R101, R102) -/

/-- `DEC_T` reads back the three fields `ENC_L` packed. -/
theorem tempSixteenths_limitWord (n : Int) :
    tempSixteenths (limitWord n) = 16 * (limitIntegral n : Int) + 4 * limitFraction n - 4096 * limitSign n := by
  have hsign : (tempSign (limitWord n)).toNat = limitSign n := by
    rw [tempSign, limitWord_getLsbD_sign, limitSign]
    split <;> simp [*]
  have hf := limitFraction_lt n
  rw [tempSixteenths, tempIntegral_eq_extract, limitWord_extract_integral, hsign, tempFraction_eq, limitWord_toNat]
  omega

/-- Row 1 of the table: the two low bits are lost. -/
theorem tempSixteenths_limitWord_of_nonneg {n : Int} (h0 : 0 ≤ n) (hhigh : n ≤ 2032) :
    tempSixteenths (limitWord n) = n - n % 4 := by
  obtain ⟨hintegral, hfraction⟩ := limitFields_closed_form (show -2048 ≤ n by omega) hhigh
  rw [if_pos h0] at hintegral hfraction
  rw [tempSixteenths_limitWord, limitSign, if_neg (by omega), hintegral, hfraction]
  omega

/-- Rows 2 to 5: with `a` whole degrees and `k` quarters in the magnitude `m`, the word stands for `-a` degrees (for -1,
by the sentinel, where `a = 0`) plus `(4 - k) mod 4` quarters. -/
theorem tempSixteenths_limitWord_of_neg {m : Nat} (hpos : 0 < m) (hlow : m ≤ 2048) :
    tempSixteenths (limitWord (-m)) =
      -16 * ((if m / 16 = 0 then 1 else m / 16 : Nat) : Int) + 4 * (((4 - m % 16 / 4) % 4 : Nat) : Int) := by
  obtain ⟨hintegral, hfraction⟩ := limitFields_closed_form (show -2048 ≤ -(m : Int) by omega) (by omega)
  rw [if_neg (by omega), Int.neg_neg] at hintegral hfraction
  rw [tempSixteenths_limitWord, limitSign, if_pos (by omega), hintegral, hfraction]
  split <;> split <;> omega

/-- Settles O19, row by row. -/
theorem limitRoundTripTable : Obligations.LimitRoundTripTable := by
  unfold Obligations.LimitRoundTripTable
  intro q s hlow hhigh
  refine ⟨_, _, _, execEncL_of_legal ⟨hlow, hhigh⟩ s, rfl, fun h0 => ?_, ?_⟩
  · rw [toInt_decT, tempSixteenths_limitWord_of_nonneg h0 hhigh]
  · rintro m a k hm rfl rfl
    have hvalue (hpos : 0 < m) := tempSixteenths_limitWord_of_neg hpos (show m ≤ 2048 by omega)
    rw [toInt_decT, hm]
    refine ⟨fun h16 hk => ?_, fun h16 hk => ?_, fun h4 h15 => ?_, fun h1 h3 => ?_⟩
    · rw [hvalue (by omega), if_neg (by omega)]
      omega
    · rw [hvalue (by omega), if_neg (by omega)]
      omega
    · rw [hvalue (by omega), if_pos (by omega)]
      omega
    · rw [hvalue (by omega), if_pos (by omega)]
      omega

/-- Settles O20 from the table: rows 1, 2 and 4 lose less than 4 sixteenths; row 3 is off by `16 + m mod 4` and row 5
by `16 - m`, at least 13. -/
theorem limitRoundTripWithinQuarterDegree : Obligations.LimitRoundTripWithinQuarterDegree := by
  unfold Obligations.LimitRoundTripWithinQuarterDegree
  intro q s hlow hhigh
  obtain ⟨w, warn, d, henc, hdec, hnonneg, hneg⟩ := limitRoundTripTable q s hlow hhigh
  refine ⟨w, warn, d, henc, hdec, ?_⟩
  by_cases h0 : 0 ≤ q.toInt
  · have hrow := hnonneg h0
    omega
  · obtain ⟨m, hm⟩ := Int.exists_eq_neg_ofNat (show q.toInt ≤ 0 by omega)
    obtain ⟨hrow2, hrow3, hrow4, hrow5⟩ := hneg m _ _ hm rfl rfl
    rcases Nat.lt_or_ge m 16 with h16 | h16
    · rcases Nat.lt_or_ge m 4 with h4 | h4
      · have hrow := hrow5 (by omega) (by omega)
        omega
      · have hrow := hrow4 h4 (by omega)
        omega
    · rcases Nat.eq_zero_or_pos (m % 16 / 4) with hk | hk
      · have hrow := hrow2 h16 hk
        omega
      · have hrow := hrow3 h16 hk
        omega

end Sys2Proof.Machine


/-! SUPPORT. The round trip of the resolution levels (rule R115). -/

namespace Sys2Proof.Machine

theorem extract_setWidth_byte (b : Byte) : (b.setWidth 16).extractLsb' 0 8 = b := by
  rw [← BitVec.setWidth_eq_extractLsb' (by decide), BitVec.setWidth_setWidth_of_le _ (by decide),
    BitVec.setWidth_eq]

/-- A level passes through twice: the low byte of the first answer is the level, and so is that of the second. -/
theorem passLevel_twice {b : Byte} (h : b.toNat ≤ 3) (s : State) :
    ∃ c d, passLevel b s = .next (s.respond (.ok c false)) ∧
      passLevel (c.extractLsb' 0 8) s = .next (s.respond (.ok d false)) ∧ d.extractLsb' 0 8 = b := by
  have hbyte := extract_setWidth_byte b
  refine ⟨b.setWidth 16, b.setWidth 16, passLevel_of_level h s, ?_, hbyte⟩
  rw [hbyte]
  exact passLevel_of_level h s

/-- Settles O23: `ENC_R` and `DEC_R` are the same passthrough, so both compositions are it twice. -/
theorem resolutionRoundTrip : Obligations.ResolutionRoundTrip := by
  unfold Obligations.ResolutionRoundTrip
  intro b s h
  exact ⟨passLevel_twice h s, passLevel_twice h s⟩

end Sys2Proof.Machine

/-! SUPPORT. The configuration codec: the words of `DEC_C`, `LD_C`, `ENC_C` and `RD_C` field by field, and their
round trips (rules R121 to R137). -/

namespace Sys2Proof.Machine

open Sys2Proof.Safety

/-! ### A packed configuration word (rule R60) -/

section
variable (h : BitVec 2) (b8 b7 b6 b5 b4 b3 b2 b1 b0 : Bool)

theorem packConfig_extract_hyst : (packConfig h b8 b7 b6 b5 b4 b3 b2 b1 b0).extractLsb' 9 2 = h := by
  apply BitVec.eq_of_getLsbD_eq
  intro i hi
  rw [BitVec.getLsbD_extractLsb', packConfig_getLsbD]
  interval_cases i <;> rfl

theorem packConfig_extract_unused : (packConfig h b8 b7 b6 b5 b4 b3 b2 b1 b0).extractLsb' 11 5 = 0#5 := by
  apply BitVec.eq_of_getLsbD_eq
  intro i hi
  rw [BitVec.getLsbD_extractLsb', packConfig_getLsbD]
  interval_cases i <;> rfl

end

/-- The hard-wired field reads 0 in the image (rule R17). -/
theorem image_getLsbD_intClear (c : Cfg) : c.image.getLsbD 5 = false := packConfig_getLsbD ..

theorem image_extract_unused (c : Cfg) : c.image.extractLsb' 11 5 = 0#5 := packConfig_extract_unused ..

/-! ### `DEC_C` and `LD_C` -/

theorem exec_decC (w : Word) (s : State) :
    exec (.decC w) s = .next (s.respond (.ok (w &&& 0x07DF#16) false)) := by
  rw [← image_ofWord]
  rfl

theorem exec_ldC (w : Word) (s : State) :
    exec (.ldC w) s = .next ((s.loadCache (Cfg.ofWord w)).respond (.ok (w &&& 0x07DF#16) false)) := by
  rw [← image_ofWord]
  rfl

/-- Bits the mask clears do not reach the answer of `DEC_C` (rules R122, R123). -/
theorem exec_decC_congr {v w : Word} (h : v &&& 0x07DF#16 = w &&& 0x07DF#16) (s : State) :
    exec (.decC v) s = exec (.decC w) s := by
  rw [exec_decC, exec_decC, h]

/-- Settles O25: the answer is the masked word, and the mask clears bits 15:11 and 5. -/
theorem decCGivesFieldImage : Obligations.DecCGivesFieldImage := by
  unfold Obligations.DecCGivesFieldImage
  intro w s
  refine ⟨exec_decC w s, exec_decC_congr ?_ s, exec_decC_congr ?_ s⟩
  · exact BitVec.and_assoc w _ _
  · rw [BitVec.and_or_distrib_right]
    exact BitVec.or_zero

/-- Settles O26: the loaded record is the word's fields, and its image is the masked word. -/
theorem ldCLoadsEveryField : Obligations.LdCLoadsEveryField := by
  unfold Obligations.LdCLoadsEveryField
  intro w s
  exact ⟨_, exec_ldC w s, rfl, rfl, rfl, rfl, rfl, rfl, rfl, rfl, rfl, rfl, rfl, image_ofWord w, rfl, rfl⟩

/-- Settles O27: the state an `LD_C` leaves is made of the word and of what the host still presents. -/
theorem ldCDoesNotJudge : Obligations.LdCDoesNotJudge := by
  unfold Obligations.LdCDoesNotJudge
  intro w s u
  exact ⟨_, _, exec_ldC w s, exec_ldC w u, rfl, rfl, rfl, id, exec_ldC w _⟩

/-! ### The word of `ENC_C` (rules R128, R132) -/

/-- Every field of the encoded word at its place, and its unused bits. -/
theorem encodeConfig_fields (o : Overrides) (c : Cfg) :
    (encodeConfig o c).extractLsb' 9 2 = pick (o.hyst.map (BitVec.extractLsb' 0 2)) c.hyst ∧
      (encodeConfig o c).getLsbD 8 = pick o.shdn c.shdn ∧
      (encodeConfig o c).getLsbD 7 = pick o.critLock c.critLock ∧
      (encodeConfig o c).getLsbD 6 = pick o.winLock c.winLock ∧
      (encodeConfig o c).getLsbD 5 = pick o.intClear false ∧ (encodeConfig o c).getLsbD 4 = false ∧
      (encodeConfig o c).getLsbD 3 = pick o.alertEn c.alertEn ∧
      (encodeConfig o c).getLsbD 2 = pick o.alertSel c.alertSel ∧
      (encodeConfig o c).getLsbD 1 = pick o.alertPol c.alertPol ∧
      (encodeConfig o c).getLsbD 0 = pick o.alertMode c.alertMode ∧
      (encodeConfig o c).extractLsb' 11 5 = 0#5 :=
  ⟨packConfig_extract_hyst .., packConfig_getLsbD .., packConfig_getLsbD .., packConfig_getLsbD ..,
    packConfig_getLsbD .., packConfig_getLsbD .., packConfig_getLsbD .., packConfig_getLsbD ..,
    packConfig_getLsbD .., packConfig_getLsbD .., packConfig_extract_unused ..⟩

/-- Settles O28, by the fields of the encoded word. -/
theorem encCEncodesOverridesOverCache : Obligations.EncCEncodesOverridesOverCache := by
  unfold Obligations.EncCEncodesOverridesOverCache
  intro o s ho
  obtain ⟨hyst, rest⟩ := encodeConfig_fields o s.cfg
  refine ⟨_, exec_encC_of_canEncode ho, hyst.trans ?_, rest⟩
  cases o.hyst <;> rfl

/-! ### The errors and the frame of `ENC_C` -/

/-- A hysteresis override above 3 is refused before the cache is looked at (rules R129, R158). -/
theorem exec_encC_of_hyst_above {o : Overrides} {h : Byte} (ho : o.hyst = some h) (hh : 3 < h.toNat) (s : State) :
    exec (.encC o) s = .next (s.respond (.error .validationError)) := by
  refine execEncC_of_illegal ?_ s
  rw [← Bool.not_eq_false, hystIllegal_eq_false]
  intro hlegal
  exact absurd (hlegal h ho) (by omega)

/-- Settles O29, by the three outcomes of `ENC_C`. -/
theorem encCErrorsInOrder : Obligations.EncCErrorsInOrder := by
  unfold Obligations.EncCErrorsInOrder
  intro o s
  exact ⟨fun h ho hh => exec_encC_of_hyst_above ho hh s,
    fun ho hs hn => execEncC_defaulting_without_cache hs ho hn,
    fun ho => ⟨_, exec_encC_of_canEncode ho⟩⟩

/-- `ENC_C` changes only the response port, whatever it answers (rule R133). -/
theorem exec_encC_responds (o : Overrides) (s : State) : ∃ r, exec (.encC o) s = .next (s.respond r) := by
  rcases exec_cases (.encC o) s with h | ⟨w, hw, -⟩
  · exact h
  · cases hw

/-- Settles O30: the first `ENC_C` leaves only its response behind, which no command reads. -/
theorem encCNeverWritesTheCache : Obligations.EncCNeverWritesTheCache := by
  unfold Obligations.EncCNeverWritesTheCache
  intro o p s
  obtain ⟨r, hr⟩ := exec_encC_responds o s
  obtain ⟨q, hq⟩ := exec_encC_responds p s
  exact ⟨r, q, hr, (exec_respond (.encC p) s r).trans hq, hq⟩

/-! ### Round trips (rule R134) -/

/-- A hysteresis override that is a level loses nothing in the two bits of the word (rule R129). -/
theorem setWidth_extract_level {h : Byte} (hh : h.toNat ≤ 3) : (h.extractLsb' 0 2).setWidth 8 = h := by
  apply BitVec.eq_of_toNat_eq
  simp [BitVec.extractLsb'_toNat]
  omega

theorem hystLegal_of_level {o : Overrides} {h : Byte} (ho : o.hyst = some h) (hh : h.toNat ≤ 3) : HystLegal o := by
  intro v hv
  cases ho.symm.trans hv
  exact hh

/-- With no override the image is encoded again, its read-only alert flag cleared (rules R132, R134). -/
theorem encodeConfig_noOverrides (c : Cfg) : encodeConfig noOverrides c = c.image &&& 0x07CF#16 := by
  apply BitVec.eq_of_getLsbD_eq
  intro i hi
  simp only [encodeConfig, Cfg.image, BitVec.getLsbD_and, packConfig_getLsbD]
  interval_cases i <;> simp [noOverrides, pick]

/-- Settles O31: the fields of the encoded word are those of its image, and an unmodified load is encoded again. -/
theorem configRoundTrip : Obligations.ConfigRoundTrip := by
  unfold Obligations.ConfigRoundTrip
  refine ⟨fun h sh cl wl ic ae asel ap am s hh => ?_, fun w s => ⟨_, exec_ldC w s, ?_⟩⟩
  · have ho : CanEncode ⟨some h, some sh, some cl, some wl, some ic, some ae, some asel, some ap, some am⟩ s :=
      ⟨hystLegal_of_level rfl hh, .inr ⟨rfl, rfl, rfl, rfl, rfl, rfl, rfl, rfl⟩⟩
    obtain ⟨e109, e8, e7, e6, -, e4, e3, e2, e1, e0, -⟩ := encodeConfig_fields _ s.cfg
    obtain ⟨d109, d8, d7, d6, d4, d3, d2, d1, d0⟩ := image_fields (Cfg.ofWord (encodeConfig _ s.cfg))
    refine ⟨_, _, exec_encC_of_canEncode ho, rfl, ?_, d8.trans e8, d7.trans e7, d6.trans e6,
      image_getLsbD_intClear _, d4.trans e4, d3.trans e3, d2.trans e2, d1.trans e1, d0.trans e0⟩
    exact (congrArg _ (d109.trans e109)).trans (setWidth_extract_level hh)
  · have hword : encodeConfig noOverrides (Cfg.ofWord w) = w &&& 0x07CF#16 := by
      rw [encodeConfig_noOverrides, image_ofWord]
      exact BitVec.and_assoc w _ _
    rw [← hword]
    exact exec_encC_of_canEncode ⟨nofun, .inl rfl⟩

/-! ### One override over a loaded cache (rules R128, R135, R186) -/

/-- A hysteresis-only encode puts the level in the place of the cached one. -/
theorem encodeConfig_hyst_only {h : Byte} (hh : h.toNat ≤ 3) (c : Cfg) :
    encodeConfig { noOverrides with hyst := some h } c = (c.image &&& 0x01CF#16) ||| (h.setWidth 16 <<< 9) := by
  rw [← setWidth_extract_level hh]
  generalize h.extractLsb' 0 2 = level
  apply BitVec.eq_of_getLsbD_eq
  intro i hi
  simp only [encodeConfig, Cfg.image, BitVec.getLsbD_or, BitVec.getLsbD_and, packConfig_getLsbD]
  interval_cases i <;> simp [noOverrides, pick]

/-- Settles O32, by the word of a hysteresis-only encode. -/
theorem hysteresisUpdateKeepsOtherFields : Obligations.HysteresisUpdateKeepsOtherFields := by
  unfold Obligations.HysteresisUpdateKeepsOtherFields
  intro h s hh hs
  rw [← encodeConfig_hyst_only hh]
  exact exec_encC_of_canEncode ⟨hystLegal_of_level rfl hh, .inl hs⟩

/-- Settles O46: the second encode reads the cache that the first one left as it was. -/
theorem staleCacheUndoesAnUpdate : Obligations.StaleCacheUndoesAnUpdate := by
  unfold Obligations.StaleCacheUndoesAnUpdate
  intro h b s hh hs
  obtain ⟨dhyst, -⟩ := encodeConfig_fields { noOverrides with hyst := some h } s.cfg
  obtain ⟨ehyst, eshdn, -⟩ := encodeConfig_fields { noOverrides with shdn := some b } s.cfg
  exact ⟨_, _, _, _, exec_encC_of_canEncode ⟨hystLegal_of_level rfl hh, .inl hs⟩, rfl,
    exec_encC_of_canEncode ⟨nofun, .inl hs⟩, rfl,
    (congrArg _ dhyst).trans (setWidth_extract_level hh), ehyst, eshdn⟩

/-! ### `RD_C` -/

/-- Settles O34, by the fields of the image. -/
theorem rdCReadsTheCache : Obligations.RdCReadsTheCache := by
  unfold Obligations.RdCReadsTheCache
  refine fun s => ⟨fun hs => ?_, execRdC_of_invalid⟩
  obtain ⟨hyst, shdn, critLock, winLock, alertStat, alertEn, alertSel, alertPol, alertMode⟩ := image_fields s.cfg
  exact ⟨_, execRdC_of_valid hs, rfl, hyst, shdn, critLock, winLock, image_getLsbD_intClear s.cfg, alertStat,
    alertEn, alertSel, alertPol, alertMode, image_extract_unused s.cfg⟩

/-! ### The command words of the per-field operations (rule R137) -/

theorem encode_encC_hyst_only (level : Byte) :
    encode (.encC { noOverrides with hyst := some level }) = 0x700000001#36 ||| level.setWidth 36 <<< 16 := by
  apply BitVec.eq_of_getLsbD_eq
  intro i hi
  rw [encode, getLsbD_commandWord]
  interval_cases i <;> simp [getElem_overridesArg, noOverrides, Overrides.en, Overrides.bools]

/-- Settles O35: each operation is one override, whose word is the table's for either value of a flag. -/
theorem perFieldOperationsUseTheTabledWords : Obligations.PerFieldOperationsUseTheTabledWords := by
  unfold Obligations.PerFieldOperationsUseTheTabledWords
  refine ⟨fun _ level => ⟨_, rfl, encode_encC_hyst_only level⟩, fun _ on => ⟨_, rfl, ?_⟩, fun _ on => ⟨_, rfl, ?_⟩,
    fun _ on => ⟨_, rfl, ?_⟩, fun _ => ⟨_, rfl, ?_⟩, fun _ on => ⟨_, rfl, ?_⟩, fun _ v => ⟨_, rfl, ?_⟩,
    fun _ v => ⟨_, rfl, ?_⟩, fun _ v => ⟨_, rfl, ?_⟩⟩
  · cases on <;> decide
  · cases on <;> decide
  · cases on <;> decide
  · decide
  · cases on <;> decide
  · cases v <;> decide
  · cases v <;> decide
  · cases v <;> decide

end Sys2Proof.Machine

/-! SUPPORT. The table of outcomes: what makes a command end with each error, and the frame of an error
(rules R150 to R154). -/

namespace Sys2Proof.Machine

open Sys2Proof.Safety

/-! ### The causes of the errors (rule R150) -/

/-- The rows of the table of outcomes that end with an error, by the error. -/
def ErrorCause (i : Instr) (s : State) : ErrorStatus → Prop
  | .validationError =>
    (∃ q : Word, i = .encL q ∧ (q.toInt < -2048 ∨ 2032 < q.toInt)) ∨
      (∃ b : Byte, (i = .decR b ∨ i = .encR b) ∧ 3 < b.toNat) ∨
      (∃ o h, i = .encC o ∧ o.hyst = some h ∧ 3 < h.toNat)
  | .noCache => s.cfgValid = false ∧ (i = .rdC ∨ ∃ o, i = .encC o ∧ HystLegal o ∧ ¬ AllCachedOverridden o)
  | .illegalOp => i ∈ reservedInstrs

/-- A cause is enough: the command ends with that error and changes only the response port. -/
theorem exec_of_errorCause {i : Instr} {s : State} {e : ErrorStatus} (h : ErrorCause i s e) :
    exec i s = .next (s.respond (.error e)) := by
  cases e with
  | validationError =>
    rcases h with ⟨q, rfl, hq⟩ | ⟨b, rfl | rfl, hb⟩ | ⟨o, l, rfl, ho, hl⟩
    · exact execEncL_of_illegal (by omega) s
    · exact passLevel_of_not_level hb s
    · exact passLevel_of_not_level hb s
    · exact exec_encC_of_hyst_above ho hl s
  | noCache =>
    obtain ⟨hs, rfl | ⟨o, rfl, ho, hn⟩⟩ := h
    · exact execRdC_of_invalid hs
    · exact execEncC_defaulting_without_cache hs ho hn
  | illegalOp => exact exec_of_reserved h s

/-- A hysteresis override that is refused is a level above 3 (rule R129). -/
theorem exists_hyst_above_of_not_hystLegal {o : Overrides} (h : ¬ HystLegal o) :
    ∃ l, o.hyst = some l ∧ 3 < l.toNat := by
  simpa [HystLegal] using h

/-- Without a cause the command ends with status `OK`. -/
theorem exec_ok_or_errorCause (i : Instr) (s : State) :
    (∃ t d w, exec i s = .next t ∧ t.rsp = some (.ok d w)) ∨ ∃ e, ErrorCause i s e := by
  cases i with
  | decT w | decF w | decC w | ldC w => exact .inl ⟨_, _, _, rfl, rfl⟩
  | encL q =>
    by_cases h : -2048 ≤ q.toInt ∧ q.toInt ≤ 2032
    · exact .inl ⟨_, _, _, execEncL_of_legal h s, rfl⟩
    · exact .inr ⟨.validationError, .inl ⟨q, rfl, by omega⟩⟩
  | decR b | encR b =>
    rcases Nat.lt_or_ge 3 b.toNat with h | h
    · exact .inr ⟨.validationError, .inr (.inl ⟨b, by simp, h⟩)⟩
    · exact .inl ⟨_, _, _, passLevel_of_level h s, rfl⟩
  | encC o =>
    by_cases ho : HystLegal o
    · by_cases hc : s.cfgValid = true ∨ AllCachedOverridden o
      · exact .inl ⟨_, _, _, exec_encC_of_canEncode ⟨ho, hc⟩, rfl⟩
      · obtain ⟨hs, hn⟩ := not_or.1 hc
        exact .inr ⟨.noCache, Bool.not_eq_true _ ▸ hs, .inr ⟨o, rfl, ho, hn⟩⟩
    · obtain ⟨l, hl⟩ := exists_hyst_above_of_not_hystLegal ho
      exact .inr ⟨.validationError, .inr (.inr ⟨o, l, rfl, hl⟩)⟩
  | rdC =>
    cases hs : s.cfgValid with
    | true => exact .inl ⟨_, _, _, execRdC_of_valid hs, rfl⟩
    | false => exact .inr ⟨.noCache, hs, .inl rfl⟩
  | reserved9 | reservedA | reservedB | reservedC | reservedD | reservedE | reservedF =>
    exact .inr ⟨.illegalOp, by simp [ErrorCause, reservedInstrs]⟩

/-- No command takes back or adds to what the host presents (rule R26). -/
theorem exec_keeps_pending {i : Instr} {s t : State} (ht : exec i s = .next t) : t.pending = s.pending := by
  rcases exec_cases i s with ⟨r, h⟩ | ⟨w, -, h⟩ <;> cases ht.symm.trans h <;> rfl

/-- Every command completes with one response, which is an error exactly when the error has a cause. -/
theorem exec_answers (i : Instr) (s : State) :
    ∃ t r, exec i s = .next t ∧ t.rsp = some r ∧ ∀ e, r = .error e ↔ ErrorCause i s e := by
  have error_of_cause {t : State} {r : Response} (ht : exec i s = .next t) (hr : t.rsp = some r)
      {e : ErrorStatus} (h : ErrorCause i s e) : r = .error e := by
    cases ht.symm.trans (exec_of_errorCause h)
    exact (Option.some.inj hr).symm
  rcases exec_ok_or_errorCause i s with ⟨t, d, w, ht, hr⟩ | ⟨e', he'⟩
  · exact ⟨t, _, ht, hr, fun e => ⟨nofun, error_of_cause ht hr⟩⟩
  · refine ⟨_, _, exec_of_errorCause he', rfl, fun e => ⟨fun h => ?_, error_of_cause (exec_of_errorCause he') rfl⟩⟩
    cases h
    exact he'

/-- Settles O36, by the causes of the three errors. -/
theorem errorsAreExactlyTheListed : Obligations.ErrorsAreExactlyTheListed := by
  unfold Obligations.ErrorsAreExactlyTheListed
  intro i s
  obtain ⟨t, r, ht, hr, herror⟩ := exec_answers i s
  exact ⟨t, r, ht, hr, herror .validationError, herror .noCache, herror .illegalOp⟩

/-! ### The frame of an error (rule R154) -/

/-- An error has the warning and the data bits 0 on the wires. -/
theorem wire_error_payload (e : ErrorStatus) : (Response.error e).wire.extractLsb' 0 17 = 0#17 := by
  cases e <;> rfl

/-- Settles O37: the one command that changes more than the response port answers `OK`. -/
theorem errorsChangeNothing : Obligations.ErrorsChangeNothing := by
  unfold Obligations.ErrorsChangeNothing
  intro i s t e ht hr
  refine ⟨?_, wire_error_payload e⟩
  rcases exec_cases i s with ⟨r, h⟩ | ⟨w, -, h⟩ <;> cases ht.symm.trans h
  · cases hr
    rfl
  · cases hr

/-! ### The decoder is total (rule R153) -/

theorem decode_mem_reservedInstrs_iff (c : Command) :
    decode c ∈ reservedInstrs ↔ 9 ≤ (c.extractLsb' 32 4).toNat := by
  refine ⟨fun h => ?_, decode_mem_reservedInstrs⟩
  by_contra hlt
  rw [decode_by_code] at h
  match hop : (c.extractLsb' 32 4).toNat with
  | 0 | 1 | 2 | 3 | 4 | 5 | 6 | 7 | 8 => simp [hop, reservedInstrs] at h
  | _ + 9 => omega

/-- Settles O8: IllegalOp has one cause, an instruction that only the codes from 9 decode to. -/
theorem everyCommandWordIsAnswered : Obligations.EveryCommandWordIsAnswered := by
  unfold Obligations.EveryCommandWordIsAnswered
  intro c s
  obtain ⟨t, r, ht, hr, herror⟩ := exec_answers (decode c) s
  exact ⟨t, r, (step_present s c).trans ht, hr, exec_keeps_pending ht,
    (herror .illegalOp).trans (decode_mem_reservedInstrs_iff c)⟩

end Sys2Proof.Machine

/-! SUPPORT. `INIT` (rule R170): the identity check, the revision diagnostic, and the seeding of the cache. -/

namespace Sys2Proof.Machine

open Sys2Proof.Safety

/-- The two bytes of a word read from the bus (rule R33). -/
theorem extract_append_bytes (b0 b1 : Byte) :
    (b0 ++ b1).extractLsb' 8 8 = b0 ∧ (b0 ++ b1).extractLsb' 0 8 = b1 := by
  have h := (eq_bytesOfWord_iff b0 b1 _).2 rfl
  simp only [bytesOfWord, List.cons.injEq, and_true] at h
  exact h.imp Eq.symm Eq.symm

/-- The manufacturer ID is the validated one byte by byte (rule R161). -/
theorem append_eq_manufacturer_iff (m0 m1 : Byte) :
    m0 ++ m1 = wordOfBytes 0x00#8 0x54#8 ↔ m0 = 0x00#8 ∧ m1 = 0x54#8 := by
  have hbytes : bytesOfWord (wordOfBytes 0x00#8 0x54#8) = [0x00#8, 0x54#8] := by decide
  rw [← eq_bytesOfWord_iff, hbytes]
  simp

/-- A wrong manufacturer ends `INIT` after one read. -/
theorem Session.initAgainst_of_wrong_manufacturer {h : Session} {m0 m1 : Byte} {rest : List BusReply}
    (hr : h.replies = .bytes [m0, m1] :: rest) (hm : ¬ (m0 = 0x00#8 ∧ m1 = 0x54#8)) (revision : Byte) :
    h.initAgainst revision = .failed .identityError (h.moved (readOf .manufacturerId) rest) := by
  rw [Session.initAgainst, Session.readWord_bytes .manufacturerId hr rfl, SessionOutcome.andThen_done,
    if_neg (mt (append_eq_manufacturer_iff m0 m1).1 hm)]
  rfl

/-- The session after the two identity reads of `INIT`. -/
def Session.identified (h : Session) (rest : List BusReply) : Session :=
  (h.moved (readOf .manufacturerId) rest).moved (readOf .deviceId) rest

theorem Session.identified_transfers (h : Session) (rest : List BusReply) :
    (h.identified rest).transfers = h.transfers ++ [readOf .manufacturerId, readOf .deviceId] :=
  List.append_assoc ..

/-- With the right manufacturer `INIT` is the test of the family, the diagnostic and the reload. -/
theorem Session.initAgainst_of_manufacturer {h : Session} {d0 d1 : Byte} {rest : List BusReply}
    (hr : h.replies = .bytes [0x00#8, 0x54#8] :: .bytes [d0, d1] :: rest) (revision : Byte) :
    h.initAgainst revision =
      if d0 = 0x04#8 then ((h.identified rest).diagnoseIf (d1 != revision) .revisionMismatch).reload
      else .failed .identityError (h.identified rest) := by
  obtain ⟨hfamily, hrevision⟩ := extract_append_bytes d0 d1
  rw [Session.initAgainst, Session.readWord_bytes .manufacturerId hr rfl, SessionOutcome.andThen_done,
    if_pos ((append_eq_manufacturer_iff _ _).2 ⟨rfl, rfl⟩), Session.readWord_bytes .deviceId rfl rfl,
    SessionOutcome.andThen_done, hfamily, hrevision]
  rfl

/-- `INIT` of the validated device is the reload after the diagnostic. -/
theorem Session.initAgainst_done {h : Session} {d1 c0 c1 : Byte} {rest : List BusReply}
    (hr : h.replies = .bytes [0x00#8, 0x54#8] :: .bytes [0x04#8, d1] :: .bytes [c0, c1] :: rest)
    (revision : Byte) :
    h.initAgainst revision = .done (Cfg.ofWord (c0 ++ c1))
      (((h.identified (.bytes [c0, c1] :: rest)).diagnoseIf (d1 != revision) .revisionMismatch).reloaded
        (c0 ++ c1) rest) := by
  rw [Session.initAgainst_of_manufacturer hr, if_pos rfl]
  exact Session.reload_bytes (Session.diagnoseIf_replies ..)

/-- Settles O48, by the two identity tests and the reload. -/
theorem initChecksIdentityThenSeedsTheCache : Obligations.InitChecksIdentityThenSeedsTheCache := by
  unfold Obligations.InitChecksIdentityThenSeedsTheCache
  refine ⟨fun h m0 m1 rest hr hm => ?_, fun h d0 d1 rest hr hd => ?_, fun h d1 c0 c1 rest hr => ?_⟩
  · exact ⟨_, Session.initAgainst_of_wrong_manufacturer hr hm _, rfl, rfl, rfl⟩
  · have hfailed := Session.initAgainst_of_manufacturer hr Config.expectedRevision
    rw [if_neg hd] at hfailed
    exact ⟨_, hfailed, rfl, rfl, Session.identified_transfers h rest⟩
  · refine ⟨_, Session.initAgainst_done hr _, State.loaded_cacheHolds _ _, rfl, ?_, ?_⟩
    · simp [Session.reloaded, Session.identified_transfers, readOf, regOffset, regBytes]
    · rw [← diagnostic_unless bne_eq_false_iff_eq]
      exact Session.diagnoseIf_diagnostics ..

end Sys2Proof.Machine

/-! SUPPORT. The step that takes the reset input (rules R180, R181). -/

namespace Sys2Proof.Machine

/-- The hard-wired field is 0 after the reset input, as in the reset image (rule R17). -/
theorem State.takeReset_intClear (s : State) : s.takeReset.cfg.intClear = false := by
  rw [State.takeReset_cfg, Cfg.reset_intClear]

/-- Settles O6: the step accepts the event, so the state reset is the one that presents what follows it. -/
theorem stepTakesResetInput : Obligations.StepTakesResetInput := by
  unfold Obligations.StepTakesResetInput
  intro s rest hp
  exact ⟨_, step_reset hp, State.takeReset_cfgValid _, State.takeReset_intClear _, State.takeReset_rsp _,
    State.takeReset_pending _⟩

end Sys2Proof.Machine
